-- ==== Sys2Proof/Word.lean ====
section
/-! DEFINITION. The two word types of the Kt8 core (00_scope.md R5): DATA_WIDTH = 8 and ADDR_WIDTH = 16.
Bits are numbered by weight (R7): `getLsbD n` is the bit of weight 2^n. -/

namespace Sys2Proof

/-- An 8-bit value: a general register, the flags, SP, a memory cell, an ALU operand (R5). -/
abbrev Byte := BitVec 8

/-- A 16-bit value: the PC, an address built within 16 bits (R5). -/
abbrev Word := BitVec 16

end Sys2Proof
end

