-- ==== Sys2Proof/Syntax.lean ====
section
/-! DEFINITION. The syntax of the Kt8 core: the registers an instruction names, the addressing modes, the 82 forms
(rows of spec/opcode_table.json) and the instructions with their operands (30_encoding.md R71, R72, R81, R84). -/

namespace Sys2Proof

/-- The five general registers (10_state.md R20, R21). -/
inductive Reg
  | a | w | x | y | z
deriving DecidableEq, Repr

/-- The eight addressing modes (00_scope.md R13, 30_encoding.md R72). -/
inductive Mode
  | imp | acc | imm | abs | idx | rel | ind | reg
deriving DecidableEq, Repr

/-- A form is a pair (mnemonic, addressing mode) that the opcode table has a row for (00_scope.md R13, 30_encoding.md
R81): what an opcode byte selects (R80). The constructor's name is the mnemonic followed by the mode, the mode left out
where the mnemonic has one form only. -/
inductive Form
  -- No-op
  | nop
  -- Register move
  | mov
  -- Loads
  | ldaAbs
  | ldaIdx
  | ldaImm
  | ldwAbs
  | ldwIdx
  | ldwImm
  | ldxAbs
  | ldxIdx
  | ldxImm
  | ldyAbs
  | ldyIdx
  | ldyImm
  | ldzAbs
  | ldzIdx
  | ldzImm
  -- Stores
  | staAbs
  | staIdx
  | stwAbs
  | stwIdx
  | stxAbs
  | stxIdx
  | styAbs
  | styIdx
  | stzAbs
  | stzIdx
  -- Control transfer
  | jmpAbs
  | jmpInd
  | jfn
  | ret
  | bcc
  | bcs
  | bne
  | beq
  | brp
  | brn
  -- Flags and stack
  | clc
  | sec
  | clo
  | phs
  | pos
  | pha
  | poa
  -- Compare
  | cmpAbs
  | cmpIdx
  | cmpImm
  | cpwAbs
  | cpwIdx
  | cpwImm
  | cpxAbs
  | cpxIdx
  | cpxImm
  -- Bitwise
  | andAbs
  | andIdx
  | andImm
  | oraAbs
  | oraIdx
  | oraImm
  | xorAbs
  | xorIdx
  | xorImm
  -- Rotate and shift
  | rolAbs
  | rolAcc
  | rorAbs
  | rorAcc
  | bsr
  | bsl
  -- Arithmetic
  | addAbs
  | addIdx
  | addImm
  | subAbs
  | subIdx
  | subImm
  -- Increment and decrement
  | incAbs
  | incIdx
  | decAbs
  | decIdx
  | inw
  | dew
  | inx
  | dex
deriving DecidableEq, Repr

/-- The mnemonic of a form, as the opcode table spells it (30_encoding.md R84). -/
def Form.mnemonic : Form → String
  | .nop => "NOP"
  | .mov => "MOV"
  | .ldaAbs | .ldaIdx | .ldaImm => "LDA"
  | .ldwAbs | .ldwIdx | .ldwImm => "LDW"
  | .ldxAbs | .ldxIdx | .ldxImm => "LDX"
  | .ldyAbs | .ldyIdx | .ldyImm => "LDY"
  | .ldzAbs | .ldzIdx | .ldzImm => "LDZ"
  | .staAbs | .staIdx => "STA"
  | .stwAbs | .stwIdx => "STW"
  | .stxAbs | .stxIdx => "STX"
  | .styAbs | .styIdx => "STY"
  | .stzAbs | .stzIdx => "STZ"
  | .jmpAbs | .jmpInd => "JMP"
  | .jfn => "JFN"
  | .ret => "RET"
  | .bcc => "BCC"
  | .bcs => "BCS"
  | .bne => "BNE"
  | .beq => "BEQ"
  | .brp => "BRP"
  | .brn => "BRN"
  | .clc => "CLC"
  | .sec => "SEC"
  | .clo => "CLO"
  | .phs => "PHS"
  | .pos => "POS"
  | .pha => "PHA"
  | .poa => "POA"
  | .cmpAbs | .cmpIdx | .cmpImm => "CMP"
  | .cpwAbs | .cpwIdx | .cpwImm => "CPW"
  | .cpxAbs | .cpxIdx | .cpxImm => "CPX"
  | .andAbs | .andIdx | .andImm => "AND"
  | .oraAbs | .oraIdx | .oraImm => "ORA"
  | .xorAbs | .xorIdx | .xorImm => "XOR"
  | .rolAbs | .rolAcc => "ROL"
  | .rorAbs | .rorAcc => "ROR"
  | .bsr => "BSR"
  | .bsl => "BSL"
  | .addAbs | .addIdx | .addImm => "ADD"
  | .subAbs | .subIdx | .subImm => "SUB"
  | .incAbs | .incIdx => "INC"
  | .decAbs | .decIdx => "DEC"
  | .inw => "INW"
  | .dew => "DEW"
  | .inx => "INX"
  | .dex => "DEX"

/-- The addressing mode of a form (30_encoding.md R81, R84). -/
def Form.mode : Form → Mode
  | .nop | .ret | .clc | .sec | .clo | .phs | .pos | .pha | .poa | .inw | .dew | .inx | .dex => .imp
  | .rolAcc | .rorAcc | .bsr | .bsl => .acc
  | .ldaImm | .ldwImm | .ldxImm | .ldyImm | .ldzImm | .cmpImm | .cpwImm | .cpxImm | .andImm | .oraImm
  | .xorImm | .addImm | .subImm => .imm
  | .ldaAbs | .ldwAbs | .ldxAbs | .ldyAbs | .ldzAbs | .staAbs | .stwAbs | .stxAbs | .styAbs | .stzAbs
  | .jmpAbs | .jfn | .cmpAbs | .cpwAbs | .cpxAbs | .andAbs | .oraAbs | .xorAbs | .rolAbs | .rorAbs
  | .addAbs | .subAbs | .incAbs | .decAbs => .abs
  | .ldaIdx | .ldwIdx | .ldxIdx | .ldyIdx | .ldzIdx | .staIdx | .stwIdx | .stxIdx | .styIdx | .stzIdx
  | .cmpIdx | .cpwIdx | .cpxIdx | .andIdx | .oraIdx | .xorIdx | .addIdx | .subIdx | .incIdx | .decIdx => .idx
  | .bcc | .bcs | .bne | .beq | .brp | .brn => .rel
  | .jmpInd => .ind
  | .mov => .reg

/-- An instruction: a form with the operands its mode takes from a1 and a2 (30_encoding.md R72). `addr` is the 16-bit
Absolute address, or target, `{a1, a2}`; `zp` the Indexed byte a2; `v` the Immediate byte a1; `disp` the signed Relative
byte a1; `ptr` the pointer address `{a1, a2}`; `src` and `dst` the registers of MOV. Bytes a mode ignores (R76) are not
part of the instruction. -/
inductive Instr
  -- No-op
  /-- NOP imp: no operation (R140). -/
  | nop
  -- Register move
  /-- MOV reg: copy src into dst (R151). -/
  | mov (src dst : Reg)
  -- Loads
  /-- LDA abs: load A (R141). -/
  | ldaAbs (addr : Word)
  /-- LDA idx: load A (R141). -/
  | ldaIdx (zp : Byte)
  /-- LDA imm: load A (R141). -/
  | ldaImm (v : Byte)
  /-- LDW abs: load W (R142). -/
  | ldwAbs (addr : Word)
  /-- LDW idx: load W (R142). -/
  | ldwIdx (zp : Byte)
  /-- LDW imm: load W (R142). -/
  | ldwImm (v : Byte)
  /-- LDX abs: load X (R143). -/
  | ldxAbs (addr : Word)
  /-- LDX idx: load X (R143). -/
  | ldxIdx (zp : Byte)
  /-- LDX imm: load X (R143). -/
  | ldxImm (v : Byte)
  /-- LDY abs: load Y (R144). -/
  | ldyAbs (addr : Word)
  /-- LDY idx: load Y (R144). -/
  | ldyIdx (zp : Byte)
  /-- LDY imm: load Y (R144). -/
  | ldyImm (v : Byte)
  /-- LDZ abs: load Z (R145). -/
  | ldzAbs (addr : Word)
  /-- LDZ idx: load Z (R145). -/
  | ldzIdx (zp : Byte)
  /-- LDZ imm: load Z (R145). -/
  | ldzImm (v : Byte)
  -- Stores
  /-- STA abs: store A (R146). -/
  | staAbs (addr : Word)
  /-- STA idx: store A (R146). -/
  | staIdx (zp : Byte)
  /-- STW abs: store W (R147). -/
  | stwAbs (addr : Word)
  /-- STW idx: store W (R147). -/
  | stwIdx (zp : Byte)
  /-- STX abs: store X (R148). -/
  | stxAbs (addr : Word)
  /-- STX idx: store X (R148). -/
  | stxIdx (zp : Byte)
  /-- STY abs: store Y (R149). -/
  | styAbs (addr : Word)
  /-- STY idx: store Y (R149). -/
  | styIdx (zp : Byte)
  /-- STZ abs: store Z (R150). -/
  | stzAbs (addr : Word)
  /-- STZ idx: store Z (R150). -/
  | stzIdx (zp : Byte)
  -- Control transfer
  /-- JMP abs: jump (R160). -/
  | jmpAbs (addr : Word)
  /-- JMP ind: jump (R161). -/
  | jmpInd (ptr : Word)
  /-- JFN abs: call a subroutine (R162). -/
  | jfn (addr : Word)
  /-- RET imp: return from a subroutine (R163). -/
  | ret
  /-- BCC rel: branch if carry clear (R164). -/
  | bcc (disp : Byte)
  /-- BCS rel: branch if carry set (R165). -/
  | bcs (disp : Byte)
  /-- BNE rel: branch if Z clear (R166). -/
  | bne (disp : Byte)
  /-- BEQ rel: branch if Z set (R167). -/
  | beq (disp : Byte)
  /-- BRP rel: branch if N clear (R168). -/
  | brp (disp : Byte)
  /-- BRN rel: branch if N set (R169). -/
  | brn (disp : Byte)
  -- Flags and stack
  /-- CLC imp: clear carry (R180). -/
  | clc
  /-- SEC imp: set carry (R181). -/
  | sec
  /-- CLO imp: clear overflow (R182). -/
  | clo
  /-- PHS imp: push the flags (R183). -/
  | phs
  /-- POS imp: pop the flags (R184). -/
  | pos
  /-- PHA imp: push A (R185). -/
  | pha
  /-- POA imp: pop A (R186). -/
  | poa
  -- Compare
  /-- CMP abs: compare A (R195). -/
  | cmpAbs (addr : Word)
  /-- CMP idx: compare A (R195). -/
  | cmpIdx (zp : Byte)
  /-- CMP imm: compare A (R195). -/
  | cmpImm (v : Byte)
  /-- CPW abs: compare W (R196). -/
  | cpwAbs (addr : Word)
  /-- CPW idx: compare W (R196). -/
  | cpwIdx (zp : Byte)
  /-- CPW imm: compare W (R196). -/
  | cpwImm (v : Byte)
  /-- CPX abs: compare X (R197). -/
  | cpxAbs (addr : Word)
  /-- CPX idx: compare X (R197). -/
  | cpxIdx (zp : Byte)
  /-- CPX imm: compare X (R197). -/
  | cpxImm (v : Byte)
  -- Bitwise
  /-- AND abs: AND into A (R198). -/
  | andAbs (addr : Word)
  /-- AND idx: AND into A (R198). -/
  | andIdx (zp : Byte)
  /-- AND imm: AND into A (R198). -/
  | andImm (v : Byte)
  /-- ORA abs: OR into A (R199). -/
  | oraAbs (addr : Word)
  /-- ORA idx: OR into A (R199). -/
  | oraIdx (zp : Byte)
  /-- ORA imm: OR into A (R199). -/
  | oraImm (v : Byte)
  /-- XOR abs: exclusive OR into A (R200). -/
  | xorAbs (addr : Word)
  /-- XOR idx: exclusive OR into A (R200). -/
  | xorIdx (zp : Byte)
  /-- XOR imm: exclusive OR into A (R200). -/
  | xorImm (v : Byte)
  -- Rotate and shift
  /-- ROL abs: rotate left through carry (R210). -/
  | rolAbs (addr : Word)
  /-- ROL acc: rotate left through carry (R210). -/
  | rolAcc
  /-- ROR abs: rotate right through carry (R211). -/
  | rorAbs (addr : Word)
  /-- ROR acc: rotate right through carry (R211). -/
  | rorAcc
  /-- BSR acc: shift A right (R212). -/
  | bsr
  /-- BSL acc: shift A left (R213). -/
  | bsl
  -- Arithmetic
  /-- ADD abs: add with carry into A (R220). -/
  | addAbs (addr : Word)
  /-- ADD idx: add with carry into A (R220). -/
  | addIdx (zp : Byte)
  /-- ADD imm: add with carry into A (R220). -/
  | addImm (v : Byte)
  /-- SUB abs: subtract with borrow from A (R221). -/
  | subAbs (addr : Word)
  /-- SUB idx: subtract with borrow from A (R221). -/
  | subIdx (zp : Byte)
  /-- SUB imm: subtract with borrow from A (R221). -/
  | subImm (v : Byte)
  -- Increment and decrement
  /-- INC abs: increment a cell (R222). -/
  | incAbs (addr : Word)
  /-- INC idx: increment a cell (R222). -/
  | incIdx (zp : Byte)
  /-- DEC abs: decrement a cell (R223). -/
  | decAbs (addr : Word)
  /-- DEC idx: decrement a cell (R223). -/
  | decIdx (zp : Byte)
  /-- INW imp: increment W (R224). -/
  | inw
  /-- DEW imp: decrement W (R225). -/
  | dew
  /-- INX imp: increment X (R226). -/
  | inx
  /-- DEX imp: decrement X (R227). -/
  | dex
deriving DecidableEq, Repr

end Sys2Proof
end

