-- ==== Sys2Proof/Config.lean ====
section
/-! DEFINITION. The implementation parameters of the Kt8 core (00_scope.md R6). The spec leaves each to the model as a named
argument; a State carries them in its field `config`, so that every statement about a state holds for every setting
(log 1). Their default values stand in Machine/Params.lean and, for the opcode map, in Decode.lean. -/

namespace Sys2Proof

/-- OPCODE_MAP as data: entries (opcode byte, form); an opcode's form is its first entry's (30_encoding.md R80). -/
abbrev OpcodeMap := List (Byte × Form)

/-- `OPCODE_MAP(op)` (30_encoding.md R80): the form an opcode selects, or none. -/
def OpcodeMap.lookup : OpcodeMap → Byte → Option Form
  | [], _ => none
  | (b, f) :: m, op => if b = op then some f else OpcodeMap.lookup m op

/-- An opcode that selects the form, if the map has one: what the assembler looks up (30_encoding.md R92). An entry behind
another entry of its opcode selects nothing; of several opcodes that select the form, the first in the list is taken
(DESIGN CHOICE, log 16). -/
def OpcodeMap.opcodeOf (m : OpcodeMap) (f : Form) : Option Byte :=
  (m.find? fun e => e.2 == f && m.lookup e.1 == some f).map (·.1)

/-- The implementation parameters (00_scope.md R6). -/
structure Config where
  /-- OPCODE_MAP (R6, R80). -/
  opcodeMap : OpcodeMap
  /-- PROG_LO: the lowest address of program memory (R6, 41_cycle.md R123). -/
  progLo : Word
  /-- PROG_HI: the highest address of program memory (R6, 41_cycle.md R123). -/
  progHi : Word
  /-- DEFAULT_START: the start address used when the host gives none (R6, 41_cycle.md R121). -/
  defaultStart : Word
  /-- STACK_BASE: the address SP is added to (R6, 10_state.md R31). -/
  stackBase : Word
  /-- SP_TOP: SP at reset (R6, 20_memory.md R65). -/
  spTop : Byte
  /-- STACK_CAPACITY: the number of bytes that can be pushed (R6, 20_memory.md R64). -/
  stackCapacity : Byte
deriving DecidableEq, Repr

/-- SP_MIN = SP_TOP - STACK_CAPACITY (20_memory.md R64). -/
def Config.spMin (c : Config) : Byte := c.spTop - c.stackCapacity

end Sys2Proof
end

