-- ==== Sys2Proof/WellFormed.lean ====
section
/-! DEFINITION. What makes an OPCODE_MAP, a configuration and an instruction well formed (00_scope.md R6, 30_encoding.md R83,
R92). An instruction's operands are typed, so no operand value is ill formed; what can fail is that the OPCODE_MAP in
force has no opcode for its form. -/

namespace Sys2Proof

/-- The form of an instruction (00_scope.md R13). -/
def Instr.form : Instr → Form
  | .nop => .nop
  | .mov _ _ => .mov
  | .ldaAbs _ => .ldaAbs
  | .ldaIdx _ => .ldaIdx
  | .ldaImm _ => .ldaImm
  | .ldwAbs _ => .ldwAbs
  | .ldwIdx _ => .ldwIdx
  | .ldwImm _ => .ldwImm
  | .ldxAbs _ => .ldxAbs
  | .ldxIdx _ => .ldxIdx
  | .ldxImm _ => .ldxImm
  | .ldyAbs _ => .ldyAbs
  | .ldyIdx _ => .ldyIdx
  | .ldyImm _ => .ldyImm
  | .ldzAbs _ => .ldzAbs
  | .ldzIdx _ => .ldzIdx
  | .ldzImm _ => .ldzImm
  | .staAbs _ => .staAbs
  | .staIdx _ => .staIdx
  | .stwAbs _ => .stwAbs
  | .stwIdx _ => .stwIdx
  | .stxAbs _ => .stxAbs
  | .stxIdx _ => .stxIdx
  | .styAbs _ => .styAbs
  | .styIdx _ => .styIdx
  | .stzAbs _ => .stzAbs
  | .stzIdx _ => .stzIdx
  | .jmpAbs _ => .jmpAbs
  | .jmpInd _ => .jmpInd
  | .jfn _ => .jfn
  | .ret => .ret
  | .bcc _ => .bcc
  | .bcs _ => .bcs
  | .bne _ => .bne
  | .beq _ => .beq
  | .brp _ => .brp
  | .brn _ => .brn
  | .clc => .clc
  | .sec => .sec
  | .clo => .clo
  | .phs => .phs
  | .pos => .pos
  | .pha => .pha
  | .poa => .poa
  | .cmpAbs _ => .cmpAbs
  | .cmpIdx _ => .cmpIdx
  | .cmpImm _ => .cmpImm
  | .cpwAbs _ => .cpwAbs
  | .cpwIdx _ => .cpwIdx
  | .cpwImm _ => .cpwImm
  | .cpxAbs _ => .cpxAbs
  | .cpxIdx _ => .cpxIdx
  | .cpxImm _ => .cpxImm
  | .andAbs _ => .andAbs
  | .andIdx _ => .andIdx
  | .andImm _ => .andImm
  | .oraAbs _ => .oraAbs
  | .oraIdx _ => .oraIdx
  | .oraImm _ => .oraImm
  | .xorAbs _ => .xorAbs
  | .xorIdx _ => .xorIdx
  | .xorImm _ => .xorImm
  | .rolAbs _ => .rolAbs
  | .rolAcc => .rolAcc
  | .rorAbs _ => .rorAbs
  | .rorAcc => .rorAcc
  | .bsr => .bsr
  | .bsl => .bsl
  | .addAbs _ => .addAbs
  | .addIdx _ => .addIdx
  | .addImm _ => .addImm
  | .subAbs _ => .subAbs
  | .subIdx _ => .subIdx
  | .subImm _ => .subImm
  | .incAbs _ => .incAbs
  | .incIdx _ => .incIdx
  | .decAbs _ => .decAbs
  | .decIdx _ => .decIdx
  | .inw => .inw
  | .dew => .dew
  | .inx => .inx
  | .dex => .dex

/-- An instruction is well formed under a map when the map has an opcode for its form: it then has an encoding
(30_encoding.md R92). -/
def Instr.wellFormed (m : OpcodeMap) (i : Instr) : Bool := (m.opcodeOf i.form).isSome

/-- The four opcode values fixed by the source, which every OPCODE_MAP must agree with (30_encoding.md R83). -/
def OpcodeMap.wf (m : OpcodeMap) : Bool :=
  m.lookup 0 == some .nop && m.lookup 4 == some .ldaImm && m.lookup 18 == some .staIdx && m.lookup 71 == some .addImm

/-- The constraints of 00_scope.md R6: PROG_LO <= PROG_HI, STACK_BASE + SP_TOP <= 0xFFFF, 1 <= SP_TOP,
1 <= STACK_CAPACITY <= SP_TOP, the base of program memory as DEFAULT_START, and an OPCODE_MAP that agrees with R83. -/
def Config.wf (c : Config) : Bool :=
  c.opcodeMap.wf
    && decide (c.progLo.toNat ≤ c.progHi.toNat)
    && c.defaultStart == c.progLo
    && decide (c.stackBase.toNat + c.spTop.toNat ≤ 0xFFFF)
    && decide (1 ≤ c.spTop.toNat)
    && decide (1 ≤ c.stackCapacity.toNat)
    && decide (c.stackCapacity.toNat ≤ c.spTop.toNat)

end Sys2Proof
end

