-- ==== Sys2Proof/Decode.lean ====
section
/-! DEFINITION. Decoding and encoding (30_encoding.md R70 to R88): byte order helpers, the default OPCODE_MAP (R84), the
decoder from three bytes, rejecting by name (41_cycle.md R130), and the encoder (R94), both over any OPCODE_MAP. -/

namespace Sys2Proof

/-- `{h, l}`: the 16-bit concatenation of a high and a low byte (00_scope.md R8); every multi-byte quantity is big-endian
(20_memory.md R50). -/
def wordOf (h l : Byte) : Word := h ++ l

/-- `w[15:8]` (00_scope.md R8). -/
def hiByte (w : Word) : Byte := w.extractLsb' 8 8

/-- `w[7:0]` (00_scope.md R8). -/
def loByte (w : Word) : Byte := w.extractLsb' 0 8

/-- `sext_16(b)`: b read as two's complement, mod 2^16 (00_scope.md R8, 30_encoding.md R74). -/
def sext16 (b : Byte) : Word := b.signExtend 16

/-- `zext_16(b)` (00_scope.md R8). -/
def zext16 (b : Byte) : Word := b.setWidth 16

/-- MOV's 1-based register index (10_state.md R21, 30_encoding.md R75). -/
def regIndex : Reg → Byte
  | .a => 1
  | .w => 2
  | .x => 3
  | .y => 4
  | .z => 5

/-- The register an index byte names; 0 and 6..255 name none (10_state.md R21). -/
def regOfIndex (b : Byte) : Option Reg :=
  if b = 1 then some .a
  else if b = 2 then some .w
  else if b = 3 then some .x
  else if b = 4 then some .y
  else if b = 5 then some .z
  else none

/-- The rows of 30_encoding.md R84: no-op. -/
def opcodesNoop : OpcodeMap :=
  [(0, .nop)]

/-- The rows of 30_encoding.md R84: register move. -/
def opcodesMove : OpcodeMap :=
  [(1, .mov)]

/-- The rows of 30_encoding.md R84: loads. -/
def opcodesLoads : OpcodeMap :=
  [(2, .ldaAbs), (3, .ldaIdx), (4, .ldaImm), (5, .ldwAbs), (6, .ldwIdx), (7, .ldwImm), (8, .ldxAbs),
   (9, .ldxIdx), (10, .ldxImm), (11, .ldyAbs), (12, .ldyIdx), (13, .ldyImm), (14, .ldzAbs),
   (15, .ldzIdx), (16, .ldzImm)]

/-- The rows of 30_encoding.md R84: stores. -/
def opcodesStores : OpcodeMap :=
  [(17, .staAbs), (18, .staIdx), (19, .stwAbs), (20, .stwIdx), (21, .stxAbs), (22, .stxIdx),
   (23, .styAbs), (24, .styIdx), (25, .stzAbs), (26, .stzIdx)]

/-- The rows of 30_encoding.md R84: control transfer. -/
def opcodesControl : OpcodeMap :=
  [(27, .jmpAbs), (28, .jmpInd), (29, .jfn), (30, .ret), (31, .bcc), (32, .bcs), (33, .bne),
   (34, .beq), (35, .brp), (36, .brn)]

/-- The rows of 30_encoding.md R84: flags and stack. -/
def opcodesFlagsStack : OpcodeMap :=
  [(37, .clc), (38, .sec), (39, .clo), (40, .phs), (41, .pos), (42, .pha), (43, .poa)]

/-- The rows of 30_encoding.md R84: compare. -/
def opcodesCompare : OpcodeMap :=
  [(44, .cmpAbs), (45, .cmpIdx), (46, .cmpImm), (47, .cpwAbs), (48, .cpwIdx), (49, .cpwImm),
   (50, .cpxAbs), (51, .cpxIdx), (52, .cpxImm)]

/-- The rows of 30_encoding.md R84: bitwise. -/
def opcodesBitwise : OpcodeMap :=
  [(53, .andAbs), (54, .andIdx), (55, .andImm), (56, .oraAbs), (57, .oraIdx), (58, .oraImm),
   (59, .xorAbs), (60, .xorIdx), (61, .xorImm)]

/-- The rows of 30_encoding.md R84: rotate and shift. -/
def opcodesRotateShift : OpcodeMap :=
  [(62, .rolAbs), (63, .rolAcc), (64, .rorAbs), (65, .rorAcc), (66, .bsr), (67, .bsl)]

/-- The rows of 30_encoding.md R84: arithmetic. -/
def opcodesArith : OpcodeMap :=
  [(69, .addAbs), (70, .addIdx), (71, .addImm), (72, .subAbs), (73, .subIdx), (74, .subImm)]

/-- The rows of 30_encoding.md R84: increment and decrement. -/
def opcodesIncDec : OpcodeMap :=
  [(75, .incAbs), (76, .incIdx), (77, .decAbs), (78, .decIdx), (79, .inw), (80, .dew), (81, .inx),
   (82, .dex)]

/-- The default OPCODE_MAP, the table of 30_encoding.md R84 (log 12). Opcodes 68 and 83..255 have no entry (R85). -/
def defaultOpcodeMap : OpcodeMap :=
  opcodesNoop ++ opcodesMove ++ opcodesLoads ++ opcodesStores ++ opcodesControl ++ opcodesFlagsStack ++
    opcodesCompare ++ opcodesBitwise ++ opcodesRotateShift ++ opcodesArith ++ opcodesIncDec

/-- Why three bytes are no instruction (41_cycle.md R130). -/
inductive DecodeError
  /-- OPCODE_MAP has no entry for the opcode (30_encoding.md R85). -/
  | unmappedOpcode (op : Byte)
  /-- A MOV whose a1 or a2 is outside 1..5 (30_encoding.md R86). -/
  | movIndex (op a1 a2 : Byte)
  /-- Fewer than three bytes were given (30_encoding.md R70); the controller always fetches three. -/
  | truncated
deriving DecidableEq, Repr

/-- The instruction of a form with operand bytes a1 and a2 (30_encoding.md R72); `none` only for a MOV index outside 1..5
(R86). -/
def instrOf (f : Form) (a1 a2 : Byte) : Option Instr :=
  match f with
  | .nop => some .nop
  | .mov =>
    match regOfIndex a1, regOfIndex a2 with
    | some src, some dst => some (.mov src dst)
    | _, _ => none
  | .ldaAbs => some (.ldaAbs (wordOf a1 a2))
  | .ldaIdx => some (.ldaIdx a2)
  | .ldaImm => some (.ldaImm a1)
  | .ldwAbs => some (.ldwAbs (wordOf a1 a2))
  | .ldwIdx => some (.ldwIdx a2)
  | .ldwImm => some (.ldwImm a1)
  | .ldxAbs => some (.ldxAbs (wordOf a1 a2))
  | .ldxIdx => some (.ldxIdx a2)
  | .ldxImm => some (.ldxImm a1)
  | .ldyAbs => some (.ldyAbs (wordOf a1 a2))
  | .ldyIdx => some (.ldyIdx a2)
  | .ldyImm => some (.ldyImm a1)
  | .ldzAbs => some (.ldzAbs (wordOf a1 a2))
  | .ldzIdx => some (.ldzIdx a2)
  | .ldzImm => some (.ldzImm a1)
  | .staAbs => some (.staAbs (wordOf a1 a2))
  | .staIdx => some (.staIdx a2)
  | .stwAbs => some (.stwAbs (wordOf a1 a2))
  | .stwIdx => some (.stwIdx a2)
  | .stxAbs => some (.stxAbs (wordOf a1 a2))
  | .stxIdx => some (.stxIdx a2)
  | .styAbs => some (.styAbs (wordOf a1 a2))
  | .styIdx => some (.styIdx a2)
  | .stzAbs => some (.stzAbs (wordOf a1 a2))
  | .stzIdx => some (.stzIdx a2)
  | .jmpAbs => some (.jmpAbs (wordOf a1 a2))
  | .jmpInd => some (.jmpInd (wordOf a1 a2))
  | .jfn => some (.jfn (wordOf a1 a2))
  | .ret => some .ret
  | .bcc => some (.bcc a1)
  | .bcs => some (.bcs a1)
  | .bne => some (.bne a1)
  | .beq => some (.beq a1)
  | .brp => some (.brp a1)
  | .brn => some (.brn a1)
  | .clc => some .clc
  | .sec => some .sec
  | .clo => some .clo
  | .phs => some .phs
  | .pos => some .pos
  | .pha => some .pha
  | .poa => some .poa
  | .cmpAbs => some (.cmpAbs (wordOf a1 a2))
  | .cmpIdx => some (.cmpIdx a2)
  | .cmpImm => some (.cmpImm a1)
  | .cpwAbs => some (.cpwAbs (wordOf a1 a2))
  | .cpwIdx => some (.cpwIdx a2)
  | .cpwImm => some (.cpwImm a1)
  | .cpxAbs => some (.cpxAbs (wordOf a1 a2))
  | .cpxIdx => some (.cpxIdx a2)
  | .cpxImm => some (.cpxImm a1)
  | .andAbs => some (.andAbs (wordOf a1 a2))
  | .andIdx => some (.andIdx a2)
  | .andImm => some (.andImm a1)
  | .oraAbs => some (.oraAbs (wordOf a1 a2))
  | .oraIdx => some (.oraIdx a2)
  | .oraImm => some (.oraImm a1)
  | .xorAbs => some (.xorAbs (wordOf a1 a2))
  | .xorIdx => some (.xorIdx a2)
  | .xorImm => some (.xorImm a1)
  | .rolAbs => some (.rolAbs (wordOf a1 a2))
  | .rolAcc => some .rolAcc
  | .rorAbs => some (.rorAbs (wordOf a1 a2))
  | .rorAcc => some .rorAcc
  | .bsr => some .bsr
  | .bsl => some .bsl
  | .addAbs => some (.addAbs (wordOf a1 a2))
  | .addIdx => some (.addIdx a2)
  | .addImm => some (.addImm a1)
  | .subAbs => some (.subAbs (wordOf a1 a2))
  | .subIdx => some (.subIdx a2)
  | .subImm => some (.subImm a1)
  | .incAbs => some (.incAbs (wordOf a1 a2))
  | .incIdx => some (.incIdx a2)
  | .decAbs => some (.decAbs (wordOf a1 a2))
  | .decIdx => some (.decIdx a2)
  | .inw => some .inw
  | .dew => some .dew
  | .inx => some .inx
  | .dex => some .dex

/-- The decoder (30_encoding.md R79, R80; 41_cycle.md R130): the opcode byte alone selects the form, a MOV's indices are
checked, and everything else is rejected by name. -/
def decode (m : OpcodeMap) (op a1 a2 : Byte) : Except DecodeError Instr :=
  match m.lookup op with
  | none => .error (.unmappedOpcode op)
  | some f =>
    match instrOf f a1 a2 with
    | some i => .ok i
    | none => .error (.movIndex op a1 a2)

/-- The decoder on a byte sequence: the first instruction and the bytes after it (30_encoding.md R70, R71). -/
def decodeBytes (m : OpcodeMap) : List Byte → Except DecodeError (Instr × List Byte)
  | op :: a1 :: a2 :: rest =>
    match decode m op a1 a2 with
    | .ok i => .ok (i, rest)
    | .error e => .error e
  | _ => .error .truncated

/-- The two operand bytes of an instruction (30_encoding.md R94): an 8-bit operand as `[v, 0]`, a 16-bit one high byte
first, registers as their indices, nothing as `[0, 0]`. An Indexed operand's byte stands in a2, where R72 reads it, and
its ignored byte is 0 (R76). -/
def operandBytes : Instr → Byte × Byte
  | .nop => (0, 0)
  | .mov src dst => (regIndex src, regIndex dst)
  | .ldaAbs addr => (hiByte addr, loByte addr)
  | .ldaIdx zp => (0, zp)
  | .ldaImm v => (v, 0)
  | .ldwAbs addr => (hiByte addr, loByte addr)
  | .ldwIdx zp => (0, zp)
  | .ldwImm v => (v, 0)
  | .ldxAbs addr => (hiByte addr, loByte addr)
  | .ldxIdx zp => (0, zp)
  | .ldxImm v => (v, 0)
  | .ldyAbs addr => (hiByte addr, loByte addr)
  | .ldyIdx zp => (0, zp)
  | .ldyImm v => (v, 0)
  | .ldzAbs addr => (hiByte addr, loByte addr)
  | .ldzIdx zp => (0, zp)
  | .ldzImm v => (v, 0)
  | .staAbs addr => (hiByte addr, loByte addr)
  | .staIdx zp => (0, zp)
  | .stwAbs addr => (hiByte addr, loByte addr)
  | .stwIdx zp => (0, zp)
  | .stxAbs addr => (hiByte addr, loByte addr)
  | .stxIdx zp => (0, zp)
  | .styAbs addr => (hiByte addr, loByte addr)
  | .styIdx zp => (0, zp)
  | .stzAbs addr => (hiByte addr, loByte addr)
  | .stzIdx zp => (0, zp)
  | .jmpAbs addr => (hiByte addr, loByte addr)
  | .jmpInd ptr => (hiByte ptr, loByte ptr)
  | .jfn addr => (hiByte addr, loByte addr)
  | .ret => (0, 0)
  | .bcc disp => (disp, 0)
  | .bcs disp => (disp, 0)
  | .bne disp => (disp, 0)
  | .beq disp => (disp, 0)
  | .brp disp => (disp, 0)
  | .brn disp => (disp, 0)
  | .clc => (0, 0)
  | .sec => (0, 0)
  | .clo => (0, 0)
  | .phs => (0, 0)
  | .pos => (0, 0)
  | .pha => (0, 0)
  | .poa => (0, 0)
  | .cmpAbs addr => (hiByte addr, loByte addr)
  | .cmpIdx zp => (0, zp)
  | .cmpImm v => (v, 0)
  | .cpwAbs addr => (hiByte addr, loByte addr)
  | .cpwIdx zp => (0, zp)
  | .cpwImm v => (v, 0)
  | .cpxAbs addr => (hiByte addr, loByte addr)
  | .cpxIdx zp => (0, zp)
  | .cpxImm v => (v, 0)
  | .andAbs addr => (hiByte addr, loByte addr)
  | .andIdx zp => (0, zp)
  | .andImm v => (v, 0)
  | .oraAbs addr => (hiByte addr, loByte addr)
  | .oraIdx zp => (0, zp)
  | .oraImm v => (v, 0)
  | .xorAbs addr => (hiByte addr, loByte addr)
  | .xorIdx zp => (0, zp)
  | .xorImm v => (v, 0)
  | .rolAbs addr => (hiByte addr, loByte addr)
  | .rolAcc => (0, 0)
  | .rorAbs addr => (hiByte addr, loByte addr)
  | .rorAcc => (0, 0)
  | .bsr => (0, 0)
  | .bsl => (0, 0)
  | .addAbs addr => (hiByte addr, loByte addr)
  | .addIdx zp => (0, zp)
  | .addImm v => (v, 0)
  | .subAbs addr => (hiByte addr, loByte addr)
  | .subIdx zp => (0, zp)
  | .subImm v => (v, 0)
  | .incAbs addr => (hiByte addr, loByte addr)
  | .incIdx zp => (0, zp)
  | .decAbs addr => (hiByte addr, loByte addr)
  | .decIdx zp => (0, zp)
  | .inw => (0, 0)
  | .dew => (0, 0)
  | .inx => (0, 0)
  | .dex => (0, 0)

/-- The encoder: the three bytes of an instruction under an OPCODE_MAP, where the map has its form (30_encoding.md R71,
R84, R94); `none` exactly for an instruction that is not well formed under the map. -/
def encode (m : OpcodeMap) (i : Instr) : Option (List Byte) :=
  match m.opcodeOf i.form with
  | some op => some [op, (operandBytes i).1, (operandBytes i).2]
  | none => none

/-- The instruction the decoder reads, under the default map, from the table's word `w`: the 24-bit word
`{op, a1, a2}` with op in bits 23:16, a1 in 15:8 and a2 in 7:0 (30_encoding.md R84; log 9). Bits at and above `nbits`
are 0. -/
def decodeTableWord (nbits w : Nat) : Option Instr :=
  let v := w % 2 ^ nbits
  match decode defaultOpcodeMap (BitVec.ofNat 8 (v / 65536)) (BitVec.ofNat 8 (v / 256)) (BitVec.ofNat 8 v) with
  | .ok i => some i
  | .error _ => none

end Sys2Proof
end

