-- ==== Sys2Proof/Machine/Alu.lean ====
section
/-! DEFINITION. The ALU (40_alu.md): functions from operands and a carry-in to a result, a carry-out and an overflow bit. -/

namespace Sys2Proof.Machine

/-- What the adder and the subtractor return: `(r, cout, ovf)` (40_alu.md R101, R103). -/
structure AddResult where
  /-- The 8-bit result. -/
  r : Byte
  /-- The carry-out. -/
  carry : Bool
  /-- The signed overflow. -/
  overflow : Bool
deriving DecidableEq, Repr

/-- The carry chain of the ripple adder: `c[0] = cin`, `c[i+1]` from stage i's full adder (40_alu.md R101). -/
def rippleCarry (a b : Byte) (cin : Bool) : Nat → Bool
  | 0 => cin
  | i + 1 =>
    let c := rippleCarry a b cin i
    (a.getLsbD i && b.getLsbD i) || (a.getLsbD i && c) || (b.getLsbD i && c)

/-- `r[i]` of the ripple adder (40_alu.md R101). -/
def rippleSum (a b : Byte) (cin : Bool) (i : Nat) : Bool :=
  a.getLsbD i ^^ b.getLsbD i ^^ rippleCarry a b cin i

/-- `ADD8(a, b, cin)`, the 8-bit ripple-carry adder (40_alu.md R101). -/
def add8 (a b : Byte) (cin : Bool) : AddResult :=
  let r : Byte := BitVec.ofFnLE fun i : Fin 8 => rippleSum a b cin i.val
  { r := r
    carry := rippleCarry a b cin 8
    overflow := a.getLsbD 7 == b.getLsbD 7 && r.getLsbD 7 != a.getLsbD 7 }

/-- `SUB8(a, b, cin) := ADD8(a, ~b, cin)`; a carry-in of 1 means no incoming borrow (40_alu.md R103). -/
def sub8 (a b : Byte) (cin : Bool) : AddResult := add8 a (~~~b) cin

/-- `ROL8(v, cin)`: the carry enters at bit 0 and bit 7 is ejected (40_alu.md R104). -/
def rol8 (v : Byte) (cin : Bool) : Byte × Bool :=
  ((v <<< 1) ||| (BitVec.ofBool cin).setWidth 8, v.getLsbD 7)

/-- `ROR8(v, cin)`: the carry enters at bit 7 and bit 0 is ejected (40_alu.md R105). -/
def ror8 (v : Byte) (cin : Bool) : Byte × Bool :=
  (((BitVec.ofBool cin).setWidth 8 <<< 7) ||| (v >>> 1), v.getLsbD 0)

/-- `SHL8(v) := ROL8(v, 0)` (40_alu.md R106). -/
def shl8 (v : Byte) : Byte × Bool := rol8 v false

/-- `SHR8(v) := ROR8(v, 0)` (40_alu.md R106). -/
def shr8 (v : Byte) : Byte × Bool := ror8 v false

/-- `AND8` (40_alu.md R108). -/
def and8 (a b : Byte) : Byte := a &&& b

/-- `OR8` (40_alu.md R108). -/
def or8 (a b : Byte) : Byte := a ||| b

/-- `XOR8` (40_alu.md R108). -/
def xor8 (a b : Byte) : Byte := a ^^^ b

/-- What the comparator returns: `(c, z, n)` (40_alu.md R109). -/
structure CmpResult where
  /-- Register at or above the operand, unsigned. -/
  c : Bool
  /-- Register equal to the operand. -/
  z : Bool
  /-- Register below the operand, unsigned. -/
  n : Bool
deriving DecidableEq, Repr

/-- `CMP8(reg, op)`, every comparison unsigned (40_alu.md R100, R109). -/
def cmp8 (reg op : Byte) : CmpResult :=
  { c := decide (op.toNat ≤ reg.toNat), z := decide (reg = op), n := decide (reg.toNat < op.toNat) }

/-- `INC8(v) = (v + 1) mod 256` (40_alu.md R110). -/
def inc8 (v : Byte) : Byte := v + 1

/-- `DEC8(v) = (v - 1) mod 256` (40_alu.md R110). -/
def dec8 (v : Byte) : Byte := v - 1

/-- `NZ(v) = (v[7], v == 0)`, the sign-and-zero detector (40_alu.md R111). -/
def nz (v : Byte) : Bool × Bool := (v.getLsbD 7, decide (v = 0))

end Sys2Proof.Machine
end

