-- ==== Sys2Proof/Machine/Params.lean ====
section
/-! DEFINITION. The default values of the implementation parameters (00_scope.md R6; D2, D16, D17; log 1), and the sizes
and markers the source fixes (R5). -/

namespace Sys2Proof.Machine

/-- The defaults of 00_scope.md R6: the map of 30_encoding.md R84, program memory 0x4000..0xFFFF, the stack at
0x0100 with SP_TOP = 0xFF and STACK_CAPACITY = 255. -/
def defaultConfig : Config where
  opcodeMap := defaultOpcodeMap
  progLo := 0x4000
  progHi := 0xFFFF
  defaultStart := 0x4000
  stackBase := 0x0100
  spTop := 0xFF
  stackCapacity := 0xFF

/-- MEM_SIZE: addresses 0x0000..0xFFFF exist (00_scope.md R5, 20_memory.md R45, R46). -/
def memSize : Nat := 65536

/-- HEADER_MARKER (00_scope.md R5, 30_encoding.md R77). -/
def headerMarker : Byte := 0x7F

/-- HEADER_SIZE in bytes (00_scope.md R5). -/
def headerSize : Nat := 3

/-- INSTR_WIDTH in bytes: what the common advance adds to base (00_scope.md R5, 41_cycle.md R133). -/
def instrWidth : Word := 3

/-- LOAD_ADDR, where the host loads a program image (00_scope.md R5, 30_encoding.md R77). -/
def loadAddr : Nat := 0x4000

/-- The flags register after reset: bits 5 and 2 are 1 (10_state.md R26, R40). -/
def flagsReset : Byte := 0x24

end Sys2Proof.Machine
end

