-- ==== Sys2Proof/Machine/Memory.lean ====
section
/-! DEFINITION. Memory as plain data (20_memory.md R45, 10_state.md R39): the cells that differ from 0x00, addresses strictly
rising. An unlisted address reads 0x00, as power-on memory does (R40; log 18). -/

namespace Sys2Proof.Machine

/-- Memory: (address, byte) cells in one canonical form, `Memory.wf`. -/
abbrev Memory := List Host.Cell

/-- What an address no cell lists reads as: power-on memory is "zero-initialized" (20_memory.md R45). -/
def unlistedByte : Byte := 0

/-- The byte a cell holds (20_memory.md R47). -/
def Memory.read : Memory → Nat → Byte
  | [], _ => unlistedByte
  | (b, u) :: m, a => if b = a then u else Memory.read m a

/-- Put a byte before the cells of `m`, listing nothing for the byte an unlisted address reads as. -/
def Memory.listed (a : Nat) (v : Byte) (m : Memory) : Memory :=
  if v = unlistedByte then m else (a, v) :: m

/-- Store a byte in a cell (20_memory.md R48), keeping the canonical form. -/
def Memory.write : Memory → Nat → Byte → Memory
  | [], a, v => Memory.listed a v []
  | (b, u) :: m, a, v =>
    if a < b then Memory.listed a v ((b, u) :: m)
    else if a = b then Memory.listed a v m
    else (b, u) :: Memory.write m a v

/-- Store a byte sequence at consecutive addresses (20_memory.md R67, `load`). -/
def Memory.load : Memory → Nat → List Byte → Memory
  | m, _, [] => m
  | m, a, v :: vs => Memory.load (Memory.write m a v) (a + 1) vs

/-- The addresses from `lo` up are strictly rising, exist, and no cell holds the byte an unlisted address reads as. -/
def Memory.wfFrom : Nat → Memory → Bool
  | _, [] => true
  | lo, (a, v) :: m => decide (lo ≤ a) && decide (a < memSize) && decide (v ≠ unlistedByte) && Memory.wfFrom (a + 1) m

/-- The canonical form: equal memories are equal lists. -/
def Memory.wf (m : Memory) : Bool := Memory.wfFrom 0 m

end Sys2Proof.Machine
end

