-- ==== Sys2Proof/Machine/State.lean ====
section
/-! DEFINITION. The state of the Kt8 core (10_state.md) as plain data, its fault kinds, and its state after power-on. -/

namespace Sys2Proof.Machine

/-- The controller's status (10_state.md R34, 41_cycle.md R120). -/
inductive Status
  /-- Header not yet validated. -/
  | ready
  /-- Instructions execute. -/
  | running
  /-- The loop condition was false. -/
  | halted
  /-- A fatal condition occurred. -/
  | faulted
deriving DecidableEq, Repr

/-- The five fault kinds of the core (60_exceptions.md R240). A fault of the spec is a NEXT state: status Faulted and the
record FAULT, entered as R243 says (log 5), so every kind is recorded in State and `exec` and `step` never answer
`Host.Outcome.fault`. Safe: nothing is stopped that the spec lets go on. -/
inductive Fault
  /-- START outside [PROG_LO, PROG_HI]: raised by startup (41_cycle.md R123). Safe: it is recorded as the spec says. -/
  | segmentFault
  /-- The byte at START is not 0x7F: raised by startup (41_cycle.md R124). Safe: it is recorded as the spec says. -/
  | invalidHeader
  /-- An opcode OPCODE_MAP does not map, or a MOV register index outside 1..5: raised by the decode of any instruction
  (41_cycle.md R130). Safe: it is recorded as the spec says. -/
  | illegalInstruction
  /-- A Push with SP = SP_MIN or a Pop with SP = SP_TOP: raised by JFN, RET, PHS, POS, PHA, POA (20_memory.md R62, R63).
  Safe: it is recorded as the spec says. -/
  | stackFault
  /-- An access at an address of 0x10000 or above: raised by the header read, by a fetch, and by JMP Absolute-Indirect
  (20_memory.md R46, 60_exceptions.md R241). Safe: it is recorded as the spec says. -/
  | addressFault
deriving DecidableEq, Repr

/-- What stops a step for want of a meaning. No instruction of this model is refused. -/
inductive Refusal
  /-- An arm of `exec` that has no meaning yet would answer it; none does. Safe: the run stops. -/
  | notModelled (mnemonic : String)
deriving DecidableEq, Repr

/-- The info field of a fault record (60_exceptions.md R242; log 14). -/
inductive FaultInfo
  /-- SegmentFault: START. -/
  | start (addr : Word)
  /-- InvalidHeader: the byte read at START. -/
  | marker (b : Byte)
  /-- IllegalInstruction: the opcode byte. -/
  | opcode (op : Byte)
  /-- IllegalInstruction of a MOV: the opcode byte, a1 and a2. -/
  | movOperands (op a1 a2 : Byte)
  /-- StackFault of a Push. -/
  | push
  /-- StackFault of a Pop. -/
  | pop
  /-- AddressFault: the address that was out of range. -/
  | address (a : Nat)
deriving DecidableEq, Repr

/-- FAULT = (kind, code, pc, info) (10_state.md R37, 60_exceptions.md R242). -/
structure FaultRecord where
  /-- The fault kind. -/
  kind : Fault
  /-- Its code, 1..5 (60_exceptions.md R240). -/
  code : Nat
  /-- The PC at detection. -/
  pc : Word
  /-- The information of R242. -/
  info : FaultInfo
deriving DecidableEq, Repr

/-- One action of the host at an instruction boundary (20_memory.md R67, 41_cycle.md R121, R127; log 2). Reads by the host
have no effect and are functions of the state (Machine/HostInterface.lean). -/
inductive HostEvent
  /-- The host does nothing: the controller takes its own step. -/
  | quiet
  /-- The start command, with its start address if the host gives one (41_cycle.md R121). -/
  | start (addr : Option Word)
  /-- `load(bytes, atAddress)` (20_memory.md R67). -/
  | load (bytes : List Byte) (addr : Nat)
  /-- Set every cell to 0x00 (20_memory.md R67). -/
  | clear
  /-- Indexed write (20_memory.md R67). -/
  | write (addr : Nat) (v : Byte)
  /-- The host's suspend predicate changes: it now holds exactly at these pc values (10_state.md R38, 41_cycle.md R127). -/
  | suspendAt (pcs : List Word)
deriving DecidableEq, Repr

/-- The host's side of the interface: inputs of the core, not core state (10_state.md R38, R41); the MODEL's own (log 2, 3). -/
structure HostPort where
  /-- The pc values at which SUSPEND holds now (10_state.md R38; log 3). -/
  suspend : List Word
  /-- The host's actions still to come, oldest first (log 2). -/
  events : List HostEvent
deriving DecidableEq, Repr

/-- The state of the core (10_state.md R20 to R39), with the configuration (00_scope.md R6; log 1) and the host's inputs
(log 2) beside it. -/
structure State where
  /-- General register A, the accumulator (10_state.md R21, R23). -/
  a : Byte
  /-- General register W, the index register (10_state.md R21, R24). -/
  w : Byte
  /-- General register X (10_state.md R21). -/
  x : Byte
  /-- General register Y (10_state.md R21). -/
  y : Byte
  /-- General register Z (10_state.md R21). -/
  z : Byte
  /-- PC (10_state.md R25). -/
  pc : Word
  /-- SP (10_state.md R31). -/
  sp : Byte
  /-- The flags register as stored (10_state.md R26); it is read through `readFlags`, where bit 5 is 1 (R28; log 11). -/
  flags : Byte
  /-- The controller's status (10_state.md R34). -/
  status : Status
  /-- START (10_state.md R35). -/
  startAddr : Word
  /-- END, an exact integer (10_state.md R36). -/
  endAddr : Nat
  /-- FAULT (10_state.md R37). -/
  fault : Option FaultRecord
  /-- Memory (10_state.md R39). -/
  mem : Memory
  /-- The implementation parameters in force: configuration, not core state (10_state.md R41; log 1). -/
  config : Config
  /-- The host's inputs: not core state (10_state.md R38, R41; log 2). -/
  host : HostPort
deriving DecidableEq, Repr

/-- The state after power-on under a configuration (10_state.md R40, 70_reset_and_hazards.md R260). START's value is the
model's (log 6). -/
def State.powerOn (c : Config) : State where
  a := 0
  w := 0
  x := 0
  y := 0
  z := 0
  pc := 0
  sp := c.spTop
  flags := flagsReset
  status := .ready
  startAddr := 0
  endAddr := 0
  fault := none
  mem := []
  config := c
  host := { suspend := [], events := [] }

/-- The machine right after reset: power-on under the default configuration (10_state.md R40; log 1, 6, 7). -/
def State.reset : State := State.powerOn defaultConfig

end Sys2Proof.Machine
end

