-- ==== Sys2Proof/Machine/Flags.lean ====
section
/-! DEFINITION. The flags register and every flag computation (10_state.md R26 to R30, 40_alu.md R111). -/

namespace Sys2Proof.Machine

/-- The bit of F.N, weight 128 (10_state.md R26, R27). -/
def bitN : Nat := 7

/-- The bit of F.V, weight 64 (10_state.md R26, R27). -/
def bitV : Nat := 6

/-- The bit of F.Z, weight 2 (10_state.md R26, R27). -/
def bitZ : Nat := 1

/-- The bit of F.C, weight 1 (10_state.md R26, R27). -/
def bitC : Nat := 0

/-- The always-1 bit of the flags register, weight 32 (10_state.md R28). -/
def alwaysOne : Byte := 0x20

/-- The byte with bit i set to b and every other bit as it was: a flag write changes only the named bit (10_state.md R27). -/
def putBit (i : Nat) (b : Bool) (v : Byte) : Byte :=
  if b then v ||| (1#8 <<< i) else v &&& ~~~(1#8 <<< i)

/-- The flags byte as it reads: bit 5 always reads 1 (10_state.md R28; log 11). -/
def State.readFlags (s : State) : Byte := s.flags ||| alwaysOne

/-- A whole-byte write of the flags: a write to bit 5 has no effect (10_state.md R28). -/
def State.writeFlags (v : Byte) (s : State) : State := { s with flags := v ||| alwaysOne }

/-- F.N (10_state.md R27). -/
def State.flagN (s : State) : Bool := s.readFlags.getLsbD bitN

/-- F.V (10_state.md R27). -/
def State.flagV (s : State) : Bool := s.readFlags.getLsbD bitV

/-- F.Z (10_state.md R27). -/
def State.flagZ (s : State) : Bool := s.readFlags.getLsbD bitZ

/-- F.C (10_state.md R27). -/
def State.flagC (s : State) : Bool := s.readFlags.getLsbD bitC

/-- Write one bit of the flags (10_state.md R27). -/
def State.setFlag (i : Nat) (b : Bool) (s : State) : State := { s with flags := putBit i b s.flags }

/-- `F.N <- b`. -/
def State.setN (b : Bool) (s : State) : State := s.setFlag bitN b

/-- `F.V <- b`. -/
def State.setV (b : Bool) (s : State) : State := s.setFlag bitV b

/-- `F.Z <- b`. -/
def State.setZ (b : Bool) (s : State) : State := s.setFlag bitZ b

/-- `F.C <- b`. -/
def State.setC (b : Bool) (s : State) : State := s.setFlag bitC b

/-- `SetNZ(v)`: F.N <- v[7]; F.Z <- (v == 0) (00_scope.md R9, 40_alu.md R111). -/
def State.setNZ (v : Byte) (s : State) : State := (s.setN (nz v).1).setZ (nz v).2

/-- The flags of ADD and SUB: C, V, then N and Z of the result (47_arith_incdec.md R220, R221). -/
def State.setArith (o : AddResult) (s : State) : State := ((s.setC o.carry).setV o.overflow).setNZ o.r

/-- The flags of CMP, CPW and CPX (45_compare_bitwise.md R195). -/
def State.setCompare (o : CmpResult) (s : State) : State := ((s.setC o.c).setZ o.z).setN o.n

/-- The flags of BSR, BSL and the Absolute forms of ROL and ROR: C the ejected bit and N; Z is not written
(46_rotate_shift.md R210 to R213; C3). -/
def State.setShift (o : Byte × Bool) (s : State) : State := (s.setC o.2).setN (o.1.getLsbD 7)

/-- The flags of the Accumulator forms of ROL and ROR: C, N and Z (46_rotate_shift.md R210, R211). -/
def State.setRotateAcc (o : Byte × Bool) (s : State) : State := (s.setShift o).setZ (decide (o.1 = 0))

end Sys2Proof.Machine
end

