-- ==== Sys2Proof/Machine/Ops.lean ====
section
/-! DEFINITION. The named operations over registers, memory and the stack (00_scope.md R9, 20_memory.md), raising a fault
(60_exceptions.md R240 to R244), and the common PC advance (41_cycle.md R133). -/

namespace Sys2Proof.Machine

/-- What a piece of an instruction's pseudocode does: it ends with a value and a state, or a `raise` has ended the
instruction, and the state is the Faulted one, with whatever ran before it kept (00_scope.md R9, D19). -/
inductive Res (α : Type)
  /-- The piece ran to its end. -/
  | done (v : α) (s : State)
  /-- A fault was raised: nothing after it runs. -/
  | raised (s : State)
deriving DecidableEq, Repr

/-- Statements run in the order written, and a `raise` ends the instruction (00_scope.md R9). -/
def Res.bind {α β : Type} (m : Res α) (k : α → State → Res β) : Res β :=
  match m with
  | .done v s => k v s
  | .raised s => .raised s

/-- The state a piece leaves. -/
def Res.state {α : Type} : Res α → State
  | .done _ s => s
  | .raised s => s

/-- `x[r]` (00_scope.md R9). -/
def State.reg (s : State) : Reg → Byte
  | .a => s.a
  | .w => s.w
  | .x => s.x
  | .y => s.y
  | .z => s.z

/-- `x[r] <- v` (00_scope.md R9). -/
def State.setReg (r : Reg) (v : Byte) (s : State) : State :=
  match r with
  | .a => { s with a := v }
  | .w => { s with w := v }
  | .x => { s with x := v }
  | .y => { s with y := v }
  | .z => { s with z := v }

/-- The kind of fault an info belongs to (60_exceptions.md R242). -/
def FaultInfo.kind : FaultInfo → Fault
  | .start _ => .segmentFault
  | .marker _ => .invalidHeader
  | .opcode _ | .movOperands _ _ _ => .illegalInstruction
  | .push | .pop => .stackFault
  | .address _ => .addressFault

/-- The fault codes (60_exceptions.md R240). -/
def Fault.code : Fault → Nat
  | .segmentFault => 1
  | .invalidHeader => 2
  | .illegalInstruction => 3
  | .stackFault => 4
  | .addressFault => 5

/-- TAKING A FAULT, the one shared operation (60_exceptions.md R242, R243): status <- Faulted and FAULT is written with the
PC at detection; the pc, the registers, the flags, SP and memory are left as they are. There is no return from a fault
but the host's start command (R246). -/
def State.enterFault (i : FaultInfo) (s : State) : State :=
  { s with
    status := .faulted
    fault := some { kind := i.kind, code := i.kind.code, pc := s.pc, info := i } }

/-- `raise <Fault>(info)` (00_scope.md R9). -/
def raise {α : Type} (i : FaultInfo) (s : State) : Res α := .raised (s.enterFault i)

/-- The byte memory holds at an address: what `MemRead` returns where the address exists. -/
def State.byteAt (s : State) (addr : Nat) : Byte := s.mem.read addr

/-- Memory with one byte stored: what `MemWrite` leaves where the address exists. -/
def State.putByte (addr : Nat) (v : Byte) (s : State) : State := { s with mem := s.mem.write addr v }

/-- `MemRead(addr, 1)` (20_memory.md R47): the address is exact, and one outside the space raises AddressFault (R46). -/
def memRead (addr : Nat) (s : State) : Res Byte :=
  if memSize ≤ addr then raise (.address addr) s else .done (s.byteAt addr) s

/-- `MemWrite(addr, 1, v)` (20_memory.md R48). -/
def memWrite (addr : Nat) (v : Byte) (s : State) : Res Unit :=
  if memSize ≤ addr then raise (.address addr) s else .done () (s.putByte addr v)

/-- The address of the stack cell SP names, STACK_BASE + SP, exact (10_state.md R31). -/
def State.stackCell (s : State) : Nat := s.config.stackBase.toNat + s.sp.toNat

/-- SP written by the stack engine (10_state.md R31). -/
def State.setSp (v : Byte) (s : State) : State := { s with sp := v }

/-- `Push(v)` (20_memory.md R62). -/
def push (v : Byte) (s : State) : Res Unit :=
  if s.sp = s.config.spMin then raise .push s
  else (memWrite s.stackCell v s).bind fun _ s => .done () (s.setSp (s.sp - 1))

/-- `Pop()` (20_memory.md R63): the cell it vacates is zeroed. -/
def pop (s : State) : Res Byte :=
  if s.sp = s.config.spTop then raise .pop s
  else
    let s := s.setSp (s.sp + 1)
    (memRead s.stackCell s).bind fun v s =>
      (memWrite s.stackCell 0 s).bind fun _ s => .done v s

/-- The common PC advance, `pc <- (base + 3) mod 2^16` (41_cycle.md R133). -/
def State.advance (base : Word) (s : State) : State := { s with pc := base + instrWidth }

/-- The end of an instruction that transfers no control: base is its own address (00_scope.md R11). -/
def fallThrough (s : State) : Res Word := .done s.pc s

/-- An instruction as a step: its execute part gives base, and the advance follows unless a fault was raised
(41_cycle.md R133, 60_exceptions.md R243). -/
def finish (r : Res Word) : Host.Outcome State Fault Refusal :=
  match r with
  | .done base s => .next (s.advance base)
  | .raised s => .next s

end Sys2Proof.Machine
end

