-- ==== Sys2Proof/Machine/Operands.lean ====
section
/-! DEFINITION. The operand forms (30_encoding.md R72 to R76, 41_cycle.md R129) and the shared execute parts of the
instruction families. -/

namespace Sys2Proof.Machine

/-- The effective address of the Indexed mode: `zext_16((a2 + x[W]) mod 256)`, within page 0 (41_cycle.md R129). -/
def State.indexed (zp : Byte) (s : State) : Word := zext16 (zp + s.reg .w)

/-- The operand of the Immediate mode, the byte itself (30_encoding.md R73). -/
def opImm (v : Byte) (s : State) : Res Byte := .done v s

/-- M for the Absolute mode: `MemRead(EA, 1)` with EA = {a1, a2} (41_cycle.md R129). -/
def opAbs (addr : Word) (s : State) : Res Byte := memRead addr.toNat s

/-- M for the Indexed mode (41_cycle.md R129). -/
def opIdx (zp : Byte) (s : State) : Res Byte := memRead (s.indexed zp).toNat s

/-- A load's execute part: `x[r] <- v; SetNZ(v)` (42_load_store_move.md R141 to R145, R151). -/
def loadInto (r : Reg) (op : Res Byte) : Res Word :=
  op.bind fun v s => fallThrough ((s.setReg r v).setNZ v)

/-- A store's execute part: `MemWrite(EA, 1, x[r])` (42_load_store_move.md R146 to R150). -/
def storeFrom (r : Reg) (ea : Word) (s : State) : Res Word :=
  (memWrite ea.toNat (s.reg r) s).bind fun _ s => fallThrough s

/-- A compare's execute part (45_compare_bitwise.md R195 to R197). -/
def compareWith (r : Reg) (op : Res Byte) : Res Word :=
  op.bind fun v s => fallThrough (s.setCompare (cmp8 (s.reg r) v))

/-- A bitwise instruction's execute part: `x[A] <- f(x[A], op); SetNZ` (45_compare_bitwise.md R198 to R200). -/
def bitwiseIntoA (f : Byte → Byte → Byte) (op : Res Byte) : Res Word :=
  op.bind fun v s => fallThrough ((s.setReg .a (f (s.reg .a) v)).setNZ (f (s.reg .a) v))

/-- ADD's and SUB's execute part: `x[A] <- r` and the four flags, the carry-in being F.C (47_arith_incdec.md R220, R221). -/
def arithIntoA (f : Byte → Byte → Bool → AddResult) (op : Res Byte) : Res Word :=
  op.bind fun v s => fallThrough ((s.setReg .a (f (s.reg .a) v s.flagC).r).setArith (f (s.reg .a) v s.flagC))

/-- The execute part of the Absolute forms of ROL and ROR: read, rotate through F.C, write back, C and N
(46_rotate_shift.md R210, R211). -/
def rotateCell (f : Byte → Bool → Byte × Bool) (ea : Word) (s : State) : Res Word :=
  (memRead ea.toNat s).bind fun v s =>
    (memWrite ea.toNat (f v s.flagC).1 s).bind fun _ s' => fallThrough (s'.setShift (f v s.flagC))

/-- The execute part of the Accumulator forms of ROL and ROR (46_rotate_shift.md R210, R211). -/
def rotateA (f : Byte → Bool → Byte × Bool) (s : State) : Res Word :=
  fallThrough ((s.setReg .a (f (s.reg .a) s.flagC).1).setRotateAcc (f (s.reg .a) s.flagC))

/-- The execute part of BSR and BSL (46_rotate_shift.md R212, R213). -/
def shiftA (f : Byte → Byte × Bool) (s : State) : Res Word :=
  fallThrough ((s.setReg .a (f (s.reg .a)).1).setShift (f (s.reg .a)))

/-- The execute part of INC and DEC: read, write back, SetNZ (47_arith_incdec.md R222, R223). -/
def stepCell (f : Byte → Byte) (ea : Word) (s : State) : Res Word :=
  (memRead ea.toNat s).bind fun v s =>
    (memWrite ea.toNat (f v) s).bind fun _ s => fallThrough (s.setNZ (f v))

/-- The execute part of INW, DEW, INX and DEX (47_arith_incdec.md R224 to R227). -/
def stepReg (f : Byte → Byte) (r : Reg) (s : State) : Res Word :=
  fallThrough ((s.setReg r (f (s.reg r))).setNZ (f (s.reg r)))

/-- A branch's execute part: taken, `base := (pc + DISP - 3) mod 2^16`; otherwise base is pc (43_control.md R164). -/
def branchIf (cond : Bool) (disp : Byte) (s : State) : Res Word :=
  if cond then .done (s.pc + sext16 disp - instrWidth) s else fallThrough s

end Sys2Proof.Machine
end

