-- ==== Sys2Proof/Machine/Arith.lean ====
section
/-! DEFINITION. Arithmetic, increment and decrement (47_arith_incdec.md). -/

namespace Sys2Proof.Machine

/-- ADD Absolute: add with carry into A (47_arith_incdec.md R220). -/
def execAddAbs (addr : Word) (s : State) : Host.Outcome State Fault Refusal :=
  finish (arithIntoA add8 (opAbs addr s))

/-- ADD Indexed: add with carry into A (47_arith_incdec.md R220). -/
def execAddIdx (zp : Byte) (s : State) : Host.Outcome State Fault Refusal :=
  finish (arithIntoA add8 (opIdx zp s))

/-- ADD Immediate: add with carry into A (47_arith_incdec.md R220). -/
def execAddImm (v : Byte) (s : State) : Host.Outcome State Fault Refusal :=
  finish (arithIntoA add8 (opImm v s))

/-- SUB Absolute: subtract with borrow from A (47_arith_incdec.md R221). -/
def execSubAbs (addr : Word) (s : State) : Host.Outcome State Fault Refusal :=
  finish (arithIntoA sub8 (opAbs addr s))

/-- SUB Indexed: subtract with borrow from A (47_arith_incdec.md R221). -/
def execSubIdx (zp : Byte) (s : State) : Host.Outcome State Fault Refusal :=
  finish (arithIntoA sub8 (opIdx zp s))

/-- SUB Immediate: subtract with borrow from A (47_arith_incdec.md R221). -/
def execSubImm (v : Byte) (s : State) : Host.Outcome State Fault Refusal :=
  finish (arithIntoA sub8 (opImm v s))

/-- INC Absolute: increment a cell (47_arith_incdec.md R222). -/
def execIncAbs (addr : Word) (s : State) : Host.Outcome State Fault Refusal :=
  finish (stepCell inc8 addr s)

/-- INC Indexed: increment a cell (47_arith_incdec.md R222). -/
def execIncIdx (zp : Byte) (s : State) : Host.Outcome State Fault Refusal :=
  finish (stepCell inc8 (s.indexed zp) s)

/-- DEC Absolute: decrement a cell (47_arith_incdec.md R223). -/
def execDecAbs (addr : Word) (s : State) : Host.Outcome State Fault Refusal :=
  finish (stepCell dec8 addr s)

/-- DEC Indexed: decrement a cell (47_arith_incdec.md R223). -/
def execDecIdx (zp : Byte) (s : State) : Host.Outcome State Fault Refusal :=
  finish (stepCell dec8 (s.indexed zp) s)

/-- INW Implicit: increment W (47_arith_incdec.md R224). -/
def execInw (s : State) : Host.Outcome State Fault Refusal :=
  finish (stepReg inc8 .w s)

/-- DEW Implicit: decrement W (47_arith_incdec.md R225). -/
def execDew (s : State) : Host.Outcome State Fault Refusal :=
  finish (stepReg dec8 .w s)

/-- INX Implicit: increment X (47_arith_incdec.md R226). -/
def execInx (s : State) : Host.Outcome State Fault Refusal :=
  finish (stepReg inc8 .x s)

/-- DEX Implicit: decrement X (47_arith_incdec.md R227). -/
def execDex (s : State) : Host.Outcome State Fault Refusal :=
  finish (stepReg dec8 .x s)

end Sys2Proof.Machine
end

