-- ==== Sys2Proof/Machine/CompareBitwise.lean ====
section
/-! DEFINITION. Compare and bitwise instructions (45_compare_bitwise.md). -/

namespace Sys2Proof.Machine

/-- CMP Absolute: compare A (45_compare_bitwise.md R195). -/
def execCmpAbs (addr : Word) (s : State) : Host.Outcome State Fault Refusal :=
  finish (compareWith .a (opAbs addr s))

/-- CMP Indexed: compare A (45_compare_bitwise.md R195). -/
def execCmpIdx (zp : Byte) (s : State) : Host.Outcome State Fault Refusal :=
  finish (compareWith .a (opIdx zp s))

/-- CMP Immediate: compare A (45_compare_bitwise.md R195). -/
def execCmpImm (v : Byte) (s : State) : Host.Outcome State Fault Refusal :=
  finish (compareWith .a (opImm v s))

/-- CPW Absolute: compare W (45_compare_bitwise.md R196). -/
def execCpwAbs (addr : Word) (s : State) : Host.Outcome State Fault Refusal :=
  finish (compareWith .w (opAbs addr s))

/-- CPW Indexed: compare W (45_compare_bitwise.md R196). -/
def execCpwIdx (zp : Byte) (s : State) : Host.Outcome State Fault Refusal :=
  finish (compareWith .w (opIdx zp s))

/-- CPW Immediate: compare W (45_compare_bitwise.md R196). -/
def execCpwImm (v : Byte) (s : State) : Host.Outcome State Fault Refusal :=
  finish (compareWith .w (opImm v s))

/-- CPX Absolute: compare X (45_compare_bitwise.md R197). -/
def execCpxAbs (addr : Word) (s : State) : Host.Outcome State Fault Refusal :=
  finish (compareWith .x (opAbs addr s))

/-- CPX Indexed: compare X (45_compare_bitwise.md R197). -/
def execCpxIdx (zp : Byte) (s : State) : Host.Outcome State Fault Refusal :=
  finish (compareWith .x (opIdx zp s))

/-- CPX Immediate: compare X (45_compare_bitwise.md R197). -/
def execCpxImm (v : Byte) (s : State) : Host.Outcome State Fault Refusal :=
  finish (compareWith .x (opImm v s))

/-- AND Absolute: AND into A (45_compare_bitwise.md R198). -/
def execAndAbs (addr : Word) (s : State) : Host.Outcome State Fault Refusal :=
  finish (bitwiseIntoA and8 (opAbs addr s))

/-- AND Indexed: AND into A (45_compare_bitwise.md R198). -/
def execAndIdx (zp : Byte) (s : State) : Host.Outcome State Fault Refusal :=
  finish (bitwiseIntoA and8 (opIdx zp s))

/-- AND Immediate: AND into A (45_compare_bitwise.md R198). -/
def execAndImm (v : Byte) (s : State) : Host.Outcome State Fault Refusal :=
  finish (bitwiseIntoA and8 (opImm v s))

/-- ORA Absolute: OR into A (45_compare_bitwise.md R199). -/
def execOraAbs (addr : Word) (s : State) : Host.Outcome State Fault Refusal :=
  finish (bitwiseIntoA or8 (opAbs addr s))

/-- ORA Indexed: OR into A (45_compare_bitwise.md R199). -/
def execOraIdx (zp : Byte) (s : State) : Host.Outcome State Fault Refusal :=
  finish (bitwiseIntoA or8 (opIdx zp s))

/-- ORA Immediate: OR into A (45_compare_bitwise.md R199). -/
def execOraImm (v : Byte) (s : State) : Host.Outcome State Fault Refusal :=
  finish (bitwiseIntoA or8 (opImm v s))

/-- XOR Absolute: exclusive OR into A (45_compare_bitwise.md R200). -/
def execXorAbs (addr : Word) (s : State) : Host.Outcome State Fault Refusal :=
  finish (bitwiseIntoA xor8 (opAbs addr s))

/-- XOR Indexed: exclusive OR into A (45_compare_bitwise.md R200). -/
def execXorIdx (zp : Byte) (s : State) : Host.Outcome State Fault Refusal :=
  finish (bitwiseIntoA xor8 (opIdx zp s))

/-- XOR Immediate: exclusive OR into A (45_compare_bitwise.md R200). -/
def execXorImm (v : Byte) (s : State) : Host.Outcome State Fault Refusal :=
  finish (bitwiseIntoA xor8 (opImm v s))

end Sys2Proof.Machine
end

