-- ==== Sys2Proof/Machine/Control.lean ====
section
/-! DEFINITION. Control transfer (43_control.md): each writes base, and the common advance adds 3 to it (41_cycle.md R133, R139). -/

namespace Sys2Proof.Machine

/-- JMP Absolute: base is the target (43_control.md R160). -/
def execJmpAbs (addr : Word) (s : State) : Host.Outcome State Fault Refusal :=
  finish (.done addr s)

/-- JMP Absolute-Indirect: base is the big-endian pointer at P and P + 1, read without wrap (43_control.md R161). -/
def execJmpInd (ptr : Word) (s : State) : Host.Outcome State Fault Refusal :=
  finish <|
    (memRead ptr.toNat s).bind fun hi s =>
      (memRead (ptr.toNat + 1) s).bind fun lo s => .done (wordOf hi lo) s

/-- JFN Absolute: push the JFN's own address, high byte first, then base is the target (43_control.md R162). -/
def execJfn (addr : Word) (s : State) : Host.Outcome State Fault Refusal :=
  finish <|
    (push (hiByte s.pc) s).bind fun _ s' =>
      (push (loByte s.pc) s').bind fun _ s'' => .done addr s''

/-- RET Implicit: pop the low byte, then the high byte, and go on there (43_control.md R163). -/
def execRet (s : State) : Host.Outcome State Fault Refusal :=
  finish <|
    (pop s).bind fun lo s => (pop s).bind fun hi s => .done (wordOf hi lo) s

/-- BCC Relative: taken when F.C = 0 (43_control.md R164). -/
def execBcc (disp : Byte) (s : State) : Host.Outcome State Fault Refusal :=
  finish (branchIf (!s.flagC) disp s)

/-- BCS Relative: taken when F.C = 1 (43_control.md R165). -/
def execBcs (disp : Byte) (s : State) : Host.Outcome State Fault Refusal :=
  finish (branchIf s.flagC disp s)

/-- BNE Relative: taken when F.Z = 0 (43_control.md R166). -/
def execBne (disp : Byte) (s : State) : Host.Outcome State Fault Refusal :=
  finish (branchIf (!s.flagZ) disp s)

/-- BEQ Relative: taken when F.Z = 1 (43_control.md R167). -/
def execBeq (disp : Byte) (s : State) : Host.Outcome State Fault Refusal :=
  finish (branchIf s.flagZ disp s)

/-- BRP Relative: taken when F.N = 0 (43_control.md R168). -/
def execBrp (disp : Byte) (s : State) : Host.Outcome State Fault Refusal :=
  finish (branchIf (!s.flagN) disp s)

/-- BRN Relative: taken when F.N = 1 (43_control.md R169). -/
def execBrn (disp : Byte) (s : State) : Host.Outcome State Fault Refusal :=
  finish (branchIf s.flagN disp s)

end Sys2Proof.Machine
end

