-- ==== Sys2Proof/Machine/FlagStack.lean ====
section
/-! DEFINITION. Flag and stack instructions (44_flags_stack.md). -/

namespace Sys2Proof.Machine

/-- CLC Implicit: `F.C <- 0` (44_flags_stack.md R180). -/
def execClc (s : State) : Host.Outcome State Fault Refusal :=
  finish (fallThrough (s.setC false))

/-- SEC Implicit: `F.C <- 1` (44_flags_stack.md R181). -/
def execSec (s : State) : Host.Outcome State Fault Refusal :=
  finish (fallThrough (s.setC true))

/-- CLO Implicit: `F.V <- 0` (44_flags_stack.md R182). -/
def execClo (s : State) : Host.Outcome State Fault Refusal :=
  finish (fallThrough (s.setV false))

/-- PHS Implicit: push the whole flags byte (44_flags_stack.md R183). -/
def execPhs (s : State) : Host.Outcome State Fault Refusal :=
  finish ((push s.readFlags s).bind fun _ s => fallThrough s)

/-- POS Implicit: every flag bit from the popped byte, bit 5 staying 1 (44_flags_stack.md R184). -/
def execPos (s : State) : Host.Outcome State Fault Refusal :=
  finish ((pop s).bind fun v s => fallThrough (s.writeFlags v))

/-- PHA Implicit: push A (44_flags_stack.md R185). -/
def execPha (s : State) : Host.Outcome State Fault Refusal :=
  finish ((push (s.reg .a) s).bind fun _ s => fallThrough s)

/-- POA Implicit: pop into A, N and Z from the value (44_flags_stack.md R186). -/
def execPoa (s : State) : Host.Outcome State Fault Refusal :=
  finish (loadInto .a (pop s))

end Sys2Proof.Machine
end

