-- ==== Sys2Proof/Machine/LoadStore.lean ====
section
/-! DEFINITION. No-op, register move, loads and stores (42_load_store_move.md). -/

namespace Sys2Proof.Machine

/-- NOP Implicit: nothing but the common advance (42_load_store_move.md R140). -/
def execNop (s : State) : Host.Outcome State Fault Refusal :=
  finish (fallThrough s)

/-- MOV Register-Coded: `x[d] <- x[s]`, N and Z from the value (42_load_store_move.md R151). -/
def execMov (src dst : Reg) (s : State) : Host.Outcome State Fault Refusal :=
  finish (loadInto dst (.done (s.reg src) s))

/-- LDA Absolute: load A (42_load_store_move.md R141). -/
def execLdaAbs (addr : Word) (s : State) : Host.Outcome State Fault Refusal :=
  finish (loadInto .a (opAbs addr s))

/-- LDA Indexed: load A (42_load_store_move.md R141). -/
def execLdaIdx (zp : Byte) (s : State) : Host.Outcome State Fault Refusal :=
  finish (loadInto .a (opIdx zp s))

/-- LDA Immediate: load A (42_load_store_move.md R141). -/
def execLdaImm (v : Byte) (s : State) : Host.Outcome State Fault Refusal :=
  finish (loadInto .a (opImm v s))

/-- LDW Absolute: load W (42_load_store_move.md R142). -/
def execLdwAbs (addr : Word) (s : State) : Host.Outcome State Fault Refusal :=
  finish (loadInto .w (opAbs addr s))

/-- LDW Indexed: load W (42_load_store_move.md R142). -/
def execLdwIdx (zp : Byte) (s : State) : Host.Outcome State Fault Refusal :=
  finish (loadInto .w (opIdx zp s))

/-- LDW Immediate: load W (42_load_store_move.md R142). -/
def execLdwImm (v : Byte) (s : State) : Host.Outcome State Fault Refusal :=
  finish (loadInto .w (opImm v s))

/-- LDX Absolute: load X (42_load_store_move.md R143). -/
def execLdxAbs (addr : Word) (s : State) : Host.Outcome State Fault Refusal :=
  finish (loadInto .x (opAbs addr s))

/-- LDX Indexed: load X (42_load_store_move.md R143). -/
def execLdxIdx (zp : Byte) (s : State) : Host.Outcome State Fault Refusal :=
  finish (loadInto .x (opIdx zp s))

/-- LDX Immediate: load X (42_load_store_move.md R143). -/
def execLdxImm (v : Byte) (s : State) : Host.Outcome State Fault Refusal :=
  finish (loadInto .x (opImm v s))

/-- LDY Absolute: load Y (42_load_store_move.md R144). -/
def execLdyAbs (addr : Word) (s : State) : Host.Outcome State Fault Refusal :=
  finish (loadInto .y (opAbs addr s))

/-- LDY Indexed: load Y (42_load_store_move.md R144). -/
def execLdyIdx (zp : Byte) (s : State) : Host.Outcome State Fault Refusal :=
  finish (loadInto .y (opIdx zp s))

/-- LDY Immediate: load Y (42_load_store_move.md R144). -/
def execLdyImm (v : Byte) (s : State) : Host.Outcome State Fault Refusal :=
  finish (loadInto .y (opImm v s))

/-- LDZ Absolute: load Z (42_load_store_move.md R145). -/
def execLdzAbs (addr : Word) (s : State) : Host.Outcome State Fault Refusal :=
  finish (loadInto .z (opAbs addr s))

/-- LDZ Indexed: load Z (42_load_store_move.md R145). -/
def execLdzIdx (zp : Byte) (s : State) : Host.Outcome State Fault Refusal :=
  finish (loadInto .z (opIdx zp s))

/-- LDZ Immediate: load Z (42_load_store_move.md R145). -/
def execLdzImm (v : Byte) (s : State) : Host.Outcome State Fault Refusal :=
  finish (loadInto .z (opImm v s))

/-- STA Absolute: store A (42_load_store_move.md R146). -/
def execStaAbs (addr : Word) (s : State) : Host.Outcome State Fault Refusal :=
  finish (storeFrom .a addr s)

/-- STA Indexed: store A (42_load_store_move.md R146). -/
def execStaIdx (zp : Byte) (s : State) : Host.Outcome State Fault Refusal :=
  finish (storeFrom .a (s.indexed zp) s)

/-- STW Absolute: store W (42_load_store_move.md R147). -/
def execStwAbs (addr : Word) (s : State) : Host.Outcome State Fault Refusal :=
  finish (storeFrom .w addr s)

/-- STW Indexed: store W (42_load_store_move.md R147). -/
def execStwIdx (zp : Byte) (s : State) : Host.Outcome State Fault Refusal :=
  finish (storeFrom .w (s.indexed zp) s)

/-- STX Absolute: store X (42_load_store_move.md R148). -/
def execStxAbs (addr : Word) (s : State) : Host.Outcome State Fault Refusal :=
  finish (storeFrom .x addr s)

/-- STX Indexed: store X (42_load_store_move.md R148). -/
def execStxIdx (zp : Byte) (s : State) : Host.Outcome State Fault Refusal :=
  finish (storeFrom .x (s.indexed zp) s)

/-- STY Absolute: store Y (42_load_store_move.md R149). -/
def execStyAbs (addr : Word) (s : State) : Host.Outcome State Fault Refusal :=
  finish (storeFrom .y addr s)

/-- STY Indexed: store Y (42_load_store_move.md R149). -/
def execStyIdx (zp : Byte) (s : State) : Host.Outcome State Fault Refusal :=
  finish (storeFrom .y (s.indexed zp) s)

/-- STZ Absolute: store Z (42_load_store_move.md R150). -/
def execStzAbs (addr : Word) (s : State) : Host.Outcome State Fault Refusal :=
  finish (storeFrom .z addr s)

/-- STZ Indexed: store Z (42_load_store_move.md R150). -/
def execStzIdx (zp : Byte) (s : State) : Host.Outcome State Fault Refusal :=
  finish (storeFrom .z (s.indexed zp) s)

end Sys2Proof.Machine
end

