-- ==== Sys2Proof/Machine/RotateShift.lean ====
section
/-! DEFINITION. Rotate and shift instructions (46_rotate_shift.md). -/

namespace Sys2Proof.Machine

/-- ROL Absolute: rotate left through carry (46_rotate_shift.md R210). -/
def execRolAbs (addr : Word) (s : State) : Host.Outcome State Fault Refusal :=
  finish (rotateCell rol8 addr s)

/-- ROL Accumulator: rotate left through carry (46_rotate_shift.md R210). -/
def execRolAcc (s : State) : Host.Outcome State Fault Refusal :=
  finish (rotateA rol8 s)

/-- ROR Absolute: rotate right through carry (46_rotate_shift.md R211). -/
def execRorAbs (addr : Word) (s : State) : Host.Outcome State Fault Refusal :=
  finish (rotateCell ror8 addr s)

/-- ROR Accumulator: rotate right through carry (46_rotate_shift.md R211). -/
def execRorAcc (s : State) : Host.Outcome State Fault Refusal :=
  finish (rotateA ror8 s)

/-- BSR Accumulator: shift A right (46_rotate_shift.md R212). -/
def execBsr (s : State) : Host.Outcome State Fault Refusal :=
  finish (shiftA shr8 s)

/-- BSL Accumulator: shift A left (46_rotate_shift.md R213). -/
def execBsl (s : State) : Host.Outcome State Fault Refusal :=
  finish (shiftA shl8 s)

end Sys2Proof.Machine
end

