-- ==== Sys2Proof/Machine/Dispatch.lean ====
section
/-! DEFINITION. exec: one arm per instruction, each one direct call of its meaning (41_cycle.md R131, R133). -/

namespace Sys2Proof.Machine

def exec (i : Instr) (s : State) : Host.Outcome State Fault Refusal :=
  match i with
  | .nop => Sys2Proof.Machine.execNop s
  | .mov src dst => Sys2Proof.Machine.execMov src dst s
  | .ldaAbs addr => Sys2Proof.Machine.execLdaAbs addr s
  | .ldaIdx zp => Sys2Proof.Machine.execLdaIdx zp s
  | .ldaImm v => Sys2Proof.Machine.execLdaImm v s
  | .ldwAbs addr => Sys2Proof.Machine.execLdwAbs addr s
  | .ldwIdx zp => Sys2Proof.Machine.execLdwIdx zp s
  | .ldwImm v => Sys2Proof.Machine.execLdwImm v s
  | .ldxAbs addr => Sys2Proof.Machine.execLdxAbs addr s
  | .ldxIdx zp => Sys2Proof.Machine.execLdxIdx zp s
  | .ldxImm v => Sys2Proof.Machine.execLdxImm v s
  | .ldyAbs addr => Sys2Proof.Machine.execLdyAbs addr s
  | .ldyIdx zp => Sys2Proof.Machine.execLdyIdx zp s
  | .ldyImm v => Sys2Proof.Machine.execLdyImm v s
  | .ldzAbs addr => Sys2Proof.Machine.execLdzAbs addr s
  | .ldzIdx zp => Sys2Proof.Machine.execLdzIdx zp s
  | .ldzImm v => Sys2Proof.Machine.execLdzImm v s
  | .staAbs addr => Sys2Proof.Machine.execStaAbs addr s
  | .staIdx zp => Sys2Proof.Machine.execStaIdx zp s
  | .stwAbs addr => Sys2Proof.Machine.execStwAbs addr s
  | .stwIdx zp => Sys2Proof.Machine.execStwIdx zp s
  | .stxAbs addr => Sys2Proof.Machine.execStxAbs addr s
  | .stxIdx zp => Sys2Proof.Machine.execStxIdx zp s
  | .styAbs addr => Sys2Proof.Machine.execStyAbs addr s
  | .styIdx zp => Sys2Proof.Machine.execStyIdx zp s
  | .stzAbs addr => Sys2Proof.Machine.execStzAbs addr s
  | .stzIdx zp => Sys2Proof.Machine.execStzIdx zp s
  | .jmpAbs addr => Sys2Proof.Machine.execJmpAbs addr s
  | .jmpInd ptr => Sys2Proof.Machine.execJmpInd ptr s
  | .jfn addr => Sys2Proof.Machine.execJfn addr s
  | .ret => Sys2Proof.Machine.execRet s
  | .bcc disp => Sys2Proof.Machine.execBcc disp s
  | .bcs disp => Sys2Proof.Machine.execBcs disp s
  | .bne disp => Sys2Proof.Machine.execBne disp s
  | .beq disp => Sys2Proof.Machine.execBeq disp s
  | .brp disp => Sys2Proof.Machine.execBrp disp s
  | .brn disp => Sys2Proof.Machine.execBrn disp s
  | .clc => Sys2Proof.Machine.execClc s
  | .sec => Sys2Proof.Machine.execSec s
  | .clo => Sys2Proof.Machine.execClo s
  | .phs => Sys2Proof.Machine.execPhs s
  | .pos => Sys2Proof.Machine.execPos s
  | .pha => Sys2Proof.Machine.execPha s
  | .poa => Sys2Proof.Machine.execPoa s
  | .cmpAbs addr => Sys2Proof.Machine.execCmpAbs addr s
  | .cmpIdx zp => Sys2Proof.Machine.execCmpIdx zp s
  | .cmpImm v => Sys2Proof.Machine.execCmpImm v s
  | .cpwAbs addr => Sys2Proof.Machine.execCpwAbs addr s
  | .cpwIdx zp => Sys2Proof.Machine.execCpwIdx zp s
  | .cpwImm v => Sys2Proof.Machine.execCpwImm v s
  | .cpxAbs addr => Sys2Proof.Machine.execCpxAbs addr s
  | .cpxIdx zp => Sys2Proof.Machine.execCpxIdx zp s
  | .cpxImm v => Sys2Proof.Machine.execCpxImm v s
  | .andAbs addr => Sys2Proof.Machine.execAndAbs addr s
  | .andIdx zp => Sys2Proof.Machine.execAndIdx zp s
  | .andImm v => Sys2Proof.Machine.execAndImm v s
  | .oraAbs addr => Sys2Proof.Machine.execOraAbs addr s
  | .oraIdx zp => Sys2Proof.Machine.execOraIdx zp s
  | .oraImm v => Sys2Proof.Machine.execOraImm v s
  | .xorAbs addr => Sys2Proof.Machine.execXorAbs addr s
  | .xorIdx zp => Sys2Proof.Machine.execXorIdx zp s
  | .xorImm v => Sys2Proof.Machine.execXorImm v s
  | .rolAbs addr => Sys2Proof.Machine.execRolAbs addr s
  | .rolAcc => Sys2Proof.Machine.execRolAcc s
  | .rorAbs addr => Sys2Proof.Machine.execRorAbs addr s
  | .rorAcc => Sys2Proof.Machine.execRorAcc s
  | .bsr => Sys2Proof.Machine.execBsr s
  | .bsl => Sys2Proof.Machine.execBsl s
  | .addAbs addr => Sys2Proof.Machine.execAddAbs addr s
  | .addIdx zp => Sys2Proof.Machine.execAddIdx zp s
  | .addImm v => Sys2Proof.Machine.execAddImm v s
  | .subAbs addr => Sys2Proof.Machine.execSubAbs addr s
  | .subIdx zp => Sys2Proof.Machine.execSubIdx zp s
  | .subImm v => Sys2Proof.Machine.execSubImm v s
  | .incAbs addr => Sys2Proof.Machine.execIncAbs addr s
  | .incIdx zp => Sys2Proof.Machine.execIncIdx zp s
  | .decAbs addr => Sys2Proof.Machine.execDecAbs addr s
  | .decIdx zp => Sys2Proof.Machine.execDecIdx zp s
  | .inw => Sys2Proof.Machine.execInw s
  | .dew => Sys2Proof.Machine.execDew s
  | .inx => Sys2Proof.Machine.execInx s
  | .dex => Sys2Proof.Machine.execDex s

end Sys2Proof.Machine
end

