-- ==== Sys2Proof/Machine/Controller.lean ====
section
/-! DEFINITION. The fetch-decode-execute controller (41_cycle.md): startup and the instruction step. -/

namespace Sys2Proof.Machine

/-- `pc < END`, between the 16-bit pc and the exact integer END (41_cycle.md R126). -/
def State.loopTest (s : State) : Bool := decide (s.pc.toNat < s.endAddr)

/-- The loop test fails: status <- Halted and no other change (41_cycle.md R126, R135). -/
def State.halt (s : State) : State := { s with status := .halted }

/-- SUSPEND(pc) for the current pc (41_cycle.md R127; log 3). -/
def State.suspended (s : State) : Bool := s.host.suspend.contains s.pc

/-- The fetch: the three bytes at pc, pc + 1 and pc + 2, in that order, with no wrap (41_cycle.md R128). -/
def fetch (s : State) : Res (Byte × Byte × Byte) :=
  (memRead s.pc.toNat s).bind fun op s =>
    (memRead (s.pc.toNat + 1) s).bind fun a1 s =>
      (memRead (s.pc.toNat + 2) s).bind fun a2 s => .done (op, a1, a2) s

/-- What IllegalInstruction records when bytes are no instruction (41_cycle.md R130, 60_exceptions.md R242). The controller
fetches three bytes, so `truncated` does not reach it. -/
def DecodeError.info : DecodeError → FaultInfo
  | .unmappedOpcode op => .opcode op
  | .movIndex op a1 a2 => .movOperands op a1 a2
  | .truncated => .opcode 0

/-- Decode and execute fetched bytes: IllegalInstruction before any execute effect (41_cycle.md R130, R131). -/
def dispatch (bytes : Byte × Byte × Byte) (s : State) : Host.Outcome State Fault Refusal :=
  match decode s.config.opcodeMap bytes.1 bytes.2.1 bytes.2.2 with
  | .ok i => exec i s
  | .error e => .next (s.enterFault (DecodeError.info e))

/-- One instruction: fetch, then decode and execute (41_cycle.md R138). -/
def instructionStep (s : State) : Host.Outcome State Fault Refusal :=
  match fetch s with
  | .done bytes s => dispatch bytes s
  | .raised s => .next s

/-- The controller's own step (41_cycle.md R126 to R138). Ready, Halted and Faulted have none and stay as they are
(R120, 10_state.md R34; log 4); while SUSPEND holds, nothing changes (R127). -/
def controllerStep (s : State) : Host.Outcome State Fault Refusal :=
  match s.status with
  | .ready => .next s
  | .halted => .next s
  | .faulted => .next s
  | .running =>
    if s.loopTest then
      if s.suspended then .next s else instructionStep s
    else .next s.halt

/-- The reset part of the start command (41_cycle.md R122): memory is not changed. -/
def State.resetForStart (addr : Word) (s : State) : State :=
  { s with
    status := .ready
    startAddr := addr
    a := 0
    w := 0
    x := 0
    y := 0
    z := 0
    flags := flagsReset
    sp := s.config.spTop
    pc := 0
    endAddr := 0
    fault := none }

/-- START lies in [PROG_LO, PROG_HI] (41_cycle.md R123). -/
def State.startInRange (s : State) : Bool :=
  decide (s.config.progLo.toNat ≤ s.startAddr.toNat) && decide (s.startAddr.toNat ≤ s.config.progHi.toNat)

/-- Enter Running at the first instruction, with END = START + 3 + length, exact (41_cycle.md R125, 10_state.md R36). -/
def State.enterRunning (length : Word) (s : State) : State :=
  { s with
    endAddr := s.startAddr.toNat + headerSize + length.toNat
    pc := s.startAddr + BitVec.ofNat 16 headerSize
    status := .running }

/-- The header read and check: all three bytes are read before the marker is checked (41_cycle.md R124, R125; D38). -/
def readHeader (s : State) : Res Unit :=
  (memRead s.startAddr.toNat s).bind fun h0 s =>
    (memRead (s.startAddr.toNat + 1) s).bind fun h1 s =>
      (memRead (s.startAddr.toNat + 2) s).bind fun h2 s =>
        if h0 = headerMarker then .done () (s.enterRunning (wordOf h1 h2)) else raise (.marker h0) s

/-- The checks of startup, in their order (41_cycle.md R123 to R125, 60_exceptions.md R245). -/
def startChecks (s : State) : Res Unit :=
  if s.startInRange then readHeader s else raise (.start s.startAddr) s

/-- Startup, one atomic action (41_cycle.md R121 to R125). -/
def startup (addr : Word) (s : State) : State := (startChecks (s.resetForStart addr)).state

end Sys2Proof.Machine
end

