-- ==== Sys2Proof/Machine/HostInterface.lean ====
section
/-! DEFINITION. The host's side (41_cycle.md R121, R127, R134; 20_memory.md R66, R67; 60_exceptions.md R253): the start
command, the host memory operations, Peek and the reads, and what the host is told. -/

namespace Sys2Proof.Machine

/-- What the host is told (log 8). -/
inductive HostReport
  /-- The output event after a completed instruction: the new pc (41_cycle.md R134). -/
  | completed (pc : Word)
  /-- A fault was raised: its kind (60_exceptions.md R243). -/
  | faulted (kind : Fault)
  /-- The host's action was done. -/
  | accepted
  /-- A start command while Running: ignored (41_cycle.md R120, D35). -/
  | ignored
  /-- A host memory operation while Running, or one that reaches outside the space: no state change (20_memory.md R67). -/
  | refused
deriving DecidableEq, Repr

/-- The report of the fault a state records, where it is Faulted. -/
def State.faultReport (s : State) : Option HostReport :=
  if s.status = .faulted then s.fault.map fun r => .faulted r.kind else none

/-- The start command (41_cycle.md R121): DEFAULT_START when the host gives no address; ignored while Running (R120). -/
def startCommand (addr : Option Word) (s : State) : State :=
  if s.status = .running then s else startup (addr.getD s.config.defaultStart) s

/-- Host memory operations are allowed only while not Running (20_memory.md R67). -/
def State.hostMayAccess (s : State) : Bool := decide (s.status ≠ .running)

/-- A byte sequence at an address fits the space: no byte of it falls at 0x10000 or above (20_memory.md R67). An empty
sequence has no such byte, and so fits at every address (DESIGN CHOICE, log 13). -/
def fitsSpace (bytes : List Byte) (addr : Nat) : Bool :=
  bytes.isEmpty || decide (addr + bytes.length ≤ memSize)

/-- `load(bytes, atAddress)`: refused whole while Running or where a byte would be out of range (20_memory.md R67). -/
def hostLoad (bytes : List Byte) (addr : Nat) (s : State) : State :=
  if s.hostMayAccess && fitsSpace bytes addr then { s with mem := s.mem.load addr bytes } else s

/-- Clear: every cell to 0x00 (20_memory.md R67). -/
def hostClear (s : State) : State := if s.hostMayAccess then { s with mem := [] } else s

/-- Indexed write (20_memory.md R67; out of range: log 13). -/
def hostWrite (addr : Nat) (v : Byte) (s : State) : State :=
  if s.hostMayAccess && decide (addr < memSize) then s.putByte addr v else s

/-- The host's suspend predicate from now on (10_state.md R38, 41_cycle.md R127). -/
def hostSuspend (pcs : List Word) (s : State) : State := { s with host := { s.host with suspend := pcs } }

/-- Indexed read: the byte, or refused (`none`) while Running or outside the space (20_memory.md R67; log 13). -/
def hostRead (addr : Nat) (s : State) : Option Byte :=
  if s.hostMayAccess && decide (addr < memSize) then some (s.byteAt addr) else none

/-- Ranged read of n bytes from an address, or refused while Running or where a byte read would lie outside the space
(20_memory.md R67). A read of no byte answers the empty sequence at every address, 0x10000 and above too (DESIGN CHOICE,
log 13). -/
def hostReadRange (addr n : Nat) (s : State) : Option (List Byte) :=
  if s.hostMayAccess && (n == 0 || decide (addr + n ≤ memSize)) then
    some ((List.range n).map fun k => s.byteAt (addr + k))
  else none

/-- `Peek(addr)`: the stack cell's byte, or StackFault reported to the host; no state changes (20_memory.md R66). -/
def peek (addr : Nat) (s : State) : Except Fault Byte :=
  if s.config.stackBase.toNat + s.config.spMin.toNat + 1 ≤ addr
      ∧ addr ≤ s.config.stackBase.toNat + s.config.spTop.toNat then
    .ok (s.byteAt addr)
  else .error .stackFault

/-- The effect of a host action on the machine; `quiet` has none of its own. -/
def hostEffect (e : HostEvent) (s : State) : State :=
  match e with
  | .quiet => s
  | .start addr => startCommand addr s
  | .load bytes addr => hostLoad bytes addr s
  | .clear => hostClear s
  | .write addr v => hostWrite addr v s
  | .suspendAt pcs => hostSuspend pcs s

/-- The host's pending actions with the first one taken off (log 2). -/
def State.takeEvent (s : State) : State := { s with host := { s.host with events := s.host.events.tail } }

/-- One step of the whole machine (log 2): the host's next action at this instruction boundary, or the controller's own step
where the host does nothing. -/
def machineStep (s : State) : Host.Outcome State Fault Refusal :=
  match s.host.events with
  | [] => controllerStep s
  | .quiet :: _ => controllerStep s.takeEvent
  | e :: _ => .next (hostEffect e s.takeEvent)

/-- Whether a step of the controller from s runs an instruction (41_cycle.md R126, R127). -/
def State.runsInstruction (s : State) : Bool :=
  decide (s.status = .running) && s.loopTest && !s.suspended

/-- What the host is told of a controller step: after a completed instruction the new pc, after a fault its kind, and
otherwise nothing (41_cycle.md R134, 60_exceptions.md R243). -/
def controllerReport (s : State) : Option HostReport :=
  if s.runsInstruction then
    match instructionStep s with
    | .next t => if t.status = .faulted then t.faultReport else some (.completed t.pc)
    | _ => none
  else none

/-- What the host is told of its own action. -/
def eventReport (e : HostEvent) (s : State) : HostReport :=
  match e with
  | .quiet => .accepted
  | .start addr =>
    if s.status = .running then .ignored else (startCommand addr s).faultReport.getD .accepted
  | .load bytes addr => if s.hostMayAccess && fitsSpace bytes addr then .accepted else .refused
  | .clear => if s.hostMayAccess then .accepted else .refused
  | .write addr _ => if s.hostMayAccess && decide (addr < memSize) then .accepted else .refused
  | .suspendAt _ => .accepted

/-- What the host is told of the step from s (41_cycle.md R134, 60_exceptions.md R243): an output, not state (log 8). -/
def stepReport (s : State) : Option HostReport :=
  match s.host.events with
  | [] => controllerReport s
  | .quiet :: _ => controllerReport s.takeEvent
  | e :: _ => some (eventReport e s.takeEvent)

end Sys2Proof.Machine
end

