-- ==== Sys2Proof/Machine/Placement.lean ====
section
/-! DEFINITION. Where the next instruction is fetched, for `State.withFetchWord` (log 10): a one-instruction program. -/

namespace Sys2Proof.Machine

/-- The three bytes of the table's word, in the order they are stored: op, a1, a2 (30_encoding.md R71, R84; log 9). -/
def tableWordBytes (nbits w : Nat) : List Byte :=
  let v := w % 2 ^ nbits
  [BitVec.ofNat 8 (v / 65536), BitVec.ofNat 8 (v / 256), BitVec.ofNat 8 v]

/-- The controller fetches at pc on its next step, if the loop test holds and nothing holds it back. -/
def State.canFetchAtPc (s : State) : Bool :=
  decide (s.status = .running) && decide (s.pc.toNat + 3 ≤ memSize)

/-- The three bytes stored where a Running controller fetches: at pc, with END moved past pc if it is not. -/
def State.placeAtPc (bytes : List Byte) (s : State) : State :=
  { s with
    mem := s.mem.load s.pc.toNat bytes
    endAddr := if s.loopTest then s.endAddr else s.pc.toNat + 3
    host := { suspend := [], events := [] } }

/-- What the host's load and start leave of a one-instruction program at LOAD_ADDR, registers, flags and SP as they are:
the image `7F 00 03` and the bytes, START, END, pc and status (30_encoding.md R77, 41_cycle.md R125). -/
def State.placeAsProgram (bytes : List Byte) (s : State) : State :=
  { s with
    mem := s.mem.load loadAddr ([headerMarker, 0, 3] ++ bytes)
    startAddr := BitVec.ofNat 16 loadAddr
    endAddr := loadAddr + headerSize + 3
    pc := BitVec.ofNat 16 (loadAddr + headerSize)
    status := .running
    fault := none
    host := { suspend := [], events := [] } }

/-- The bytes placed where the next step fetches its instruction (log 10). -/
def State.place (bytes : List Byte) (s : State) : State :=
  if s.canFetchAtPc then s.placeAtPc bytes else s.placeAsProgram bytes

end Sys2Proof.Machine
end

