-- ==== Sys2Proof/Machine/Step.lean ====
section
/-! DEFINITION. The machine's step and where a word is placed to be fetched next; both only call Machine/HostInterface.lean,
Machine/Controller.lean and Machine/Placement.lean. -/

namespace Sys2Proof.Machine

/-- One step of the machine (41_cycle.md R138; log 2, log 4). -/
def step (s : State) : Host.Outcome State Fault Refusal := machineStep s

/-- The table's word placed so that the very next step fetches and runs it (log 10). -/
def State.withFetchWord (s : State) (nbits w : Nat) : State := s.place (tableWordBytes nbits w)

end Sys2Proof.Machine
end

