-- ==== Sys2Proof/Laws/State.lean ====
section
/-! SUPPORT. One lemma per field per update of State, so that no proof unfolds a record update; and what the reads `reg`,
`byteAt`, `readFlags` and `stackCell` give after each update. -/

namespace Sys2Proof.Machine

-- State.setFlag
@[simp] theorem State.setFlag_a (s : State) (i : Nat) (b : Bool) : (s.setFlag i b).a = s.a := rfl
@[simp] theorem State.setFlag_w (s : State) (i : Nat) (b : Bool) : (s.setFlag i b).w = s.w := rfl
@[simp] theorem State.setFlag_x (s : State) (i : Nat) (b : Bool) : (s.setFlag i b).x = s.x := rfl
@[simp] theorem State.setFlag_y (s : State) (i : Nat) (b : Bool) : (s.setFlag i b).y = s.y := rfl
@[simp] theorem State.setFlag_z (s : State) (i : Nat) (b : Bool) : (s.setFlag i b).z = s.z := rfl
@[simp] theorem State.setFlag_pc (s : State) (i : Nat) (b : Bool) : (s.setFlag i b).pc = s.pc := rfl
@[simp] theorem State.setFlag_sp (s : State) (i : Nat) (b : Bool) : (s.setFlag i b).sp = s.sp := rfl
@[simp] theorem State.setFlag_flags (s : State) (i : Nat) (b : Bool) : (s.setFlag i b).flags = putBit i b s.flags := rfl
@[simp] theorem State.setFlag_status (s : State) (i : Nat) (b : Bool) : (s.setFlag i b).status = s.status := rfl
@[simp] theorem State.setFlag_startAddr (s : State) (i : Nat) (b : Bool) : (s.setFlag i b).startAddr = s.startAddr := rfl
@[simp] theorem State.setFlag_endAddr (s : State) (i : Nat) (b : Bool) : (s.setFlag i b).endAddr = s.endAddr := rfl
@[simp] theorem State.setFlag_fault (s : State) (i : Nat) (b : Bool) : (s.setFlag i b).fault = s.fault := rfl
@[simp] theorem State.setFlag_mem (s : State) (i : Nat) (b : Bool) : (s.setFlag i b).mem = s.mem := rfl
@[simp] theorem State.setFlag_config (s : State) (i : Nat) (b : Bool) : (s.setFlag i b).config = s.config := rfl
@[simp] theorem State.setFlag_host (s : State) (i : Nat) (b : Bool) : (s.setFlag i b).host = s.host := rfl
@[simp] theorem State.setFlag_reg (s : State) (i : Nat) (b : Bool) (r : Reg) : (s.setFlag i b).reg r = s.reg r := by cases r <;> rfl
@[simp] theorem State.setFlag_byteAt (s : State) (i : Nat) (b : Bool) (n : Nat) : (s.setFlag i b).byteAt n = s.byteAt n := rfl
@[simp] theorem State.setFlag_stackCell (s : State) (i : Nat) (b : Bool) : (s.setFlag i b).stackCell = s.stackCell := rfl

-- State.setN
@[simp] theorem State.setN_a (s : State) (b : Bool) : (s.setN b).a = s.a := rfl
@[simp] theorem State.setN_w (s : State) (b : Bool) : (s.setN b).w = s.w := rfl
@[simp] theorem State.setN_x (s : State) (b : Bool) : (s.setN b).x = s.x := rfl
@[simp] theorem State.setN_y (s : State) (b : Bool) : (s.setN b).y = s.y := rfl
@[simp] theorem State.setN_z (s : State) (b : Bool) : (s.setN b).z = s.z := rfl
@[simp] theorem State.setN_pc (s : State) (b : Bool) : (s.setN b).pc = s.pc := rfl
@[simp] theorem State.setN_sp (s : State) (b : Bool) : (s.setN b).sp = s.sp := rfl
@[simp] theorem State.setN_flags (s : State) (b : Bool) : (s.setN b).flags = putBit bitN b s.flags := rfl
@[simp] theorem State.setN_status (s : State) (b : Bool) : (s.setN b).status = s.status := rfl
@[simp] theorem State.setN_startAddr (s : State) (b : Bool) : (s.setN b).startAddr = s.startAddr := rfl
@[simp] theorem State.setN_endAddr (s : State) (b : Bool) : (s.setN b).endAddr = s.endAddr := rfl
@[simp] theorem State.setN_fault (s : State) (b : Bool) : (s.setN b).fault = s.fault := rfl
@[simp] theorem State.setN_mem (s : State) (b : Bool) : (s.setN b).mem = s.mem := rfl
@[simp] theorem State.setN_config (s : State) (b : Bool) : (s.setN b).config = s.config := rfl
@[simp] theorem State.setN_host (s : State) (b : Bool) : (s.setN b).host = s.host := rfl
@[simp] theorem State.setN_reg (s : State) (b : Bool) (r : Reg) : (s.setN b).reg r = s.reg r := by cases r <;> rfl
@[simp] theorem State.setN_byteAt (s : State) (b : Bool) (n : Nat) : (s.setN b).byteAt n = s.byteAt n := rfl
@[simp] theorem State.setN_stackCell (s : State) (b : Bool) : (s.setN b).stackCell = s.stackCell := rfl

-- State.setV
@[simp] theorem State.setV_a (s : State) (b : Bool) : (s.setV b).a = s.a := rfl
@[simp] theorem State.setV_w (s : State) (b : Bool) : (s.setV b).w = s.w := rfl
@[simp] theorem State.setV_x (s : State) (b : Bool) : (s.setV b).x = s.x := rfl
@[simp] theorem State.setV_y (s : State) (b : Bool) : (s.setV b).y = s.y := rfl
@[simp] theorem State.setV_z (s : State) (b : Bool) : (s.setV b).z = s.z := rfl
@[simp] theorem State.setV_pc (s : State) (b : Bool) : (s.setV b).pc = s.pc := rfl
@[simp] theorem State.setV_sp (s : State) (b : Bool) : (s.setV b).sp = s.sp := rfl
@[simp] theorem State.setV_flags (s : State) (b : Bool) : (s.setV b).flags = putBit bitV b s.flags := rfl
@[simp] theorem State.setV_status (s : State) (b : Bool) : (s.setV b).status = s.status := rfl
@[simp] theorem State.setV_startAddr (s : State) (b : Bool) : (s.setV b).startAddr = s.startAddr := rfl
@[simp] theorem State.setV_endAddr (s : State) (b : Bool) : (s.setV b).endAddr = s.endAddr := rfl
@[simp] theorem State.setV_fault (s : State) (b : Bool) : (s.setV b).fault = s.fault := rfl
@[simp] theorem State.setV_mem (s : State) (b : Bool) : (s.setV b).mem = s.mem := rfl
@[simp] theorem State.setV_config (s : State) (b : Bool) : (s.setV b).config = s.config := rfl
@[simp] theorem State.setV_host (s : State) (b : Bool) : (s.setV b).host = s.host := rfl
@[simp] theorem State.setV_reg (s : State) (b : Bool) (r : Reg) : (s.setV b).reg r = s.reg r := by cases r <;> rfl
@[simp] theorem State.setV_byteAt (s : State) (b : Bool) (n : Nat) : (s.setV b).byteAt n = s.byteAt n := rfl
@[simp] theorem State.setV_stackCell (s : State) (b : Bool) : (s.setV b).stackCell = s.stackCell := rfl

-- State.setZ
@[simp] theorem State.setZ_a (s : State) (b : Bool) : (s.setZ b).a = s.a := rfl
@[simp] theorem State.setZ_w (s : State) (b : Bool) : (s.setZ b).w = s.w := rfl
@[simp] theorem State.setZ_x (s : State) (b : Bool) : (s.setZ b).x = s.x := rfl
@[simp] theorem State.setZ_y (s : State) (b : Bool) : (s.setZ b).y = s.y := rfl
@[simp] theorem State.setZ_z (s : State) (b : Bool) : (s.setZ b).z = s.z := rfl
@[simp] theorem State.setZ_pc (s : State) (b : Bool) : (s.setZ b).pc = s.pc := rfl
@[simp] theorem State.setZ_sp (s : State) (b : Bool) : (s.setZ b).sp = s.sp := rfl
@[simp] theorem State.setZ_flags (s : State) (b : Bool) : (s.setZ b).flags = putBit bitZ b s.flags := rfl
@[simp] theorem State.setZ_status (s : State) (b : Bool) : (s.setZ b).status = s.status := rfl
@[simp] theorem State.setZ_startAddr (s : State) (b : Bool) : (s.setZ b).startAddr = s.startAddr := rfl
@[simp] theorem State.setZ_endAddr (s : State) (b : Bool) : (s.setZ b).endAddr = s.endAddr := rfl
@[simp] theorem State.setZ_fault (s : State) (b : Bool) : (s.setZ b).fault = s.fault := rfl
@[simp] theorem State.setZ_mem (s : State) (b : Bool) : (s.setZ b).mem = s.mem := rfl
@[simp] theorem State.setZ_config (s : State) (b : Bool) : (s.setZ b).config = s.config := rfl
@[simp] theorem State.setZ_host (s : State) (b : Bool) : (s.setZ b).host = s.host := rfl
@[simp] theorem State.setZ_reg (s : State) (b : Bool) (r : Reg) : (s.setZ b).reg r = s.reg r := by cases r <;> rfl
@[simp] theorem State.setZ_byteAt (s : State) (b : Bool) (n : Nat) : (s.setZ b).byteAt n = s.byteAt n := rfl
@[simp] theorem State.setZ_stackCell (s : State) (b : Bool) : (s.setZ b).stackCell = s.stackCell := rfl

-- State.setC
@[simp] theorem State.setC_a (s : State) (b : Bool) : (s.setC b).a = s.a := rfl
@[simp] theorem State.setC_w (s : State) (b : Bool) : (s.setC b).w = s.w := rfl
@[simp] theorem State.setC_x (s : State) (b : Bool) : (s.setC b).x = s.x := rfl
@[simp] theorem State.setC_y (s : State) (b : Bool) : (s.setC b).y = s.y := rfl
@[simp] theorem State.setC_z (s : State) (b : Bool) : (s.setC b).z = s.z := rfl
@[simp] theorem State.setC_pc (s : State) (b : Bool) : (s.setC b).pc = s.pc := rfl
@[simp] theorem State.setC_sp (s : State) (b : Bool) : (s.setC b).sp = s.sp := rfl
@[simp] theorem State.setC_flags (s : State) (b : Bool) : (s.setC b).flags = putBit bitC b s.flags := rfl
@[simp] theorem State.setC_status (s : State) (b : Bool) : (s.setC b).status = s.status := rfl
@[simp] theorem State.setC_startAddr (s : State) (b : Bool) : (s.setC b).startAddr = s.startAddr := rfl
@[simp] theorem State.setC_endAddr (s : State) (b : Bool) : (s.setC b).endAddr = s.endAddr := rfl
@[simp] theorem State.setC_fault (s : State) (b : Bool) : (s.setC b).fault = s.fault := rfl
@[simp] theorem State.setC_mem (s : State) (b : Bool) : (s.setC b).mem = s.mem := rfl
@[simp] theorem State.setC_config (s : State) (b : Bool) : (s.setC b).config = s.config := rfl
@[simp] theorem State.setC_host (s : State) (b : Bool) : (s.setC b).host = s.host := rfl
@[simp] theorem State.setC_reg (s : State) (b : Bool) (r : Reg) : (s.setC b).reg r = s.reg r := by cases r <;> rfl
@[simp] theorem State.setC_byteAt (s : State) (b : Bool) (n : Nat) : (s.setC b).byteAt n = s.byteAt n := rfl
@[simp] theorem State.setC_stackCell (s : State) (b : Bool) : (s.setC b).stackCell = s.stackCell := rfl

-- State.writeFlags
@[simp] theorem State.writeFlags_a (s : State) (v : Byte) : (s.writeFlags v).a = s.a := rfl
@[simp] theorem State.writeFlags_w (s : State) (v : Byte) : (s.writeFlags v).w = s.w := rfl
@[simp] theorem State.writeFlags_x (s : State) (v : Byte) : (s.writeFlags v).x = s.x := rfl
@[simp] theorem State.writeFlags_y (s : State) (v : Byte) : (s.writeFlags v).y = s.y := rfl
@[simp] theorem State.writeFlags_z (s : State) (v : Byte) : (s.writeFlags v).z = s.z := rfl
@[simp] theorem State.writeFlags_pc (s : State) (v : Byte) : (s.writeFlags v).pc = s.pc := rfl
@[simp] theorem State.writeFlags_sp (s : State) (v : Byte) : (s.writeFlags v).sp = s.sp := rfl
@[simp] theorem State.writeFlags_flags (s : State) (v : Byte) : (s.writeFlags v).flags = v ||| alwaysOne := rfl
@[simp] theorem State.writeFlags_status (s : State) (v : Byte) : (s.writeFlags v).status = s.status := rfl
@[simp] theorem State.writeFlags_startAddr (s : State) (v : Byte) : (s.writeFlags v).startAddr = s.startAddr := rfl
@[simp] theorem State.writeFlags_endAddr (s : State) (v : Byte) : (s.writeFlags v).endAddr = s.endAddr := rfl
@[simp] theorem State.writeFlags_fault (s : State) (v : Byte) : (s.writeFlags v).fault = s.fault := rfl
@[simp] theorem State.writeFlags_mem (s : State) (v : Byte) : (s.writeFlags v).mem = s.mem := rfl
@[simp] theorem State.writeFlags_config (s : State) (v : Byte) : (s.writeFlags v).config = s.config := rfl
@[simp] theorem State.writeFlags_host (s : State) (v : Byte) : (s.writeFlags v).host = s.host := rfl
@[simp] theorem State.writeFlags_reg (s : State) (v : Byte) (r : Reg) : (s.writeFlags v).reg r = s.reg r := by cases r <;> rfl
@[simp] theorem State.writeFlags_byteAt (s : State) (v : Byte) (n : Nat) : (s.writeFlags v).byteAt n = s.byteAt n := rfl
@[simp] theorem State.writeFlags_stackCell (s : State) (v : Byte) : (s.writeFlags v).stackCell = s.stackCell := rfl

-- State.setNZ
@[simp] theorem State.setNZ_a (s : State) (v : Byte) : (s.setNZ v).a = s.a := rfl
@[simp] theorem State.setNZ_w (s : State) (v : Byte) : (s.setNZ v).w = s.w := rfl
@[simp] theorem State.setNZ_x (s : State) (v : Byte) : (s.setNZ v).x = s.x := rfl
@[simp] theorem State.setNZ_y (s : State) (v : Byte) : (s.setNZ v).y = s.y := rfl
@[simp] theorem State.setNZ_z (s : State) (v : Byte) : (s.setNZ v).z = s.z := rfl
@[simp] theorem State.setNZ_pc (s : State) (v : Byte) : (s.setNZ v).pc = s.pc := rfl
@[simp] theorem State.setNZ_sp (s : State) (v : Byte) : (s.setNZ v).sp = s.sp := rfl
@[simp] theorem State.setNZ_flags (s : State) (v : Byte) : (s.setNZ v).flags = putBit bitZ (nz v).2 (putBit bitN (nz v).1 s.flags) := rfl
@[simp] theorem State.setNZ_status (s : State) (v : Byte) : (s.setNZ v).status = s.status := rfl
@[simp] theorem State.setNZ_startAddr (s : State) (v : Byte) : (s.setNZ v).startAddr = s.startAddr := rfl
@[simp] theorem State.setNZ_endAddr (s : State) (v : Byte) : (s.setNZ v).endAddr = s.endAddr := rfl
@[simp] theorem State.setNZ_fault (s : State) (v : Byte) : (s.setNZ v).fault = s.fault := rfl
@[simp] theorem State.setNZ_mem (s : State) (v : Byte) : (s.setNZ v).mem = s.mem := rfl
@[simp] theorem State.setNZ_config (s : State) (v : Byte) : (s.setNZ v).config = s.config := rfl
@[simp] theorem State.setNZ_host (s : State) (v : Byte) : (s.setNZ v).host = s.host := rfl
@[simp] theorem State.setNZ_reg (s : State) (v : Byte) (r : Reg) : (s.setNZ v).reg r = s.reg r := by cases r <;> rfl
@[simp] theorem State.setNZ_byteAt (s : State) (v : Byte) (n : Nat) : (s.setNZ v).byteAt n = s.byteAt n := rfl
@[simp] theorem State.setNZ_stackCell (s : State) (v : Byte) : (s.setNZ v).stackCell = s.stackCell := rfl

-- State.setArith
@[simp] theorem State.setArith_a (s : State) (o : AddResult) : (s.setArith o).a = s.a := rfl
@[simp] theorem State.setArith_w (s : State) (o : AddResult) : (s.setArith o).w = s.w := rfl
@[simp] theorem State.setArith_x (s : State) (o : AddResult) : (s.setArith o).x = s.x := rfl
@[simp] theorem State.setArith_y (s : State) (o : AddResult) : (s.setArith o).y = s.y := rfl
@[simp] theorem State.setArith_z (s : State) (o : AddResult) : (s.setArith o).z = s.z := rfl
@[simp] theorem State.setArith_pc (s : State) (o : AddResult) : (s.setArith o).pc = s.pc := rfl
@[simp] theorem State.setArith_sp (s : State) (o : AddResult) : (s.setArith o).sp = s.sp := rfl
@[simp] theorem State.setArith_flags (s : State) (o : AddResult) : (s.setArith o).flags = putBit bitZ (nz o.r).2 (putBit bitN (nz o.r).1 (putBit bitV o.overflow (putBit bitC o.carry s.flags))) := rfl
@[simp] theorem State.setArith_status (s : State) (o : AddResult) : (s.setArith o).status = s.status := rfl
@[simp] theorem State.setArith_startAddr (s : State) (o : AddResult) : (s.setArith o).startAddr = s.startAddr := rfl
@[simp] theorem State.setArith_endAddr (s : State) (o : AddResult) : (s.setArith o).endAddr = s.endAddr := rfl
@[simp] theorem State.setArith_fault (s : State) (o : AddResult) : (s.setArith o).fault = s.fault := rfl
@[simp] theorem State.setArith_mem (s : State) (o : AddResult) : (s.setArith o).mem = s.mem := rfl
@[simp] theorem State.setArith_config (s : State) (o : AddResult) : (s.setArith o).config = s.config := rfl
@[simp] theorem State.setArith_host (s : State) (o : AddResult) : (s.setArith o).host = s.host := rfl
@[simp] theorem State.setArith_reg (s : State) (o : AddResult) (r : Reg) : (s.setArith o).reg r = s.reg r := by cases r <;> rfl
@[simp] theorem State.setArith_byteAt (s : State) (o : AddResult) (n : Nat) : (s.setArith o).byteAt n = s.byteAt n := rfl
@[simp] theorem State.setArith_stackCell (s : State) (o : AddResult) : (s.setArith o).stackCell = s.stackCell := rfl

-- State.setCompare
@[simp] theorem State.setCompare_a (s : State) (o : CmpResult) : (s.setCompare o).a = s.a := rfl
@[simp] theorem State.setCompare_w (s : State) (o : CmpResult) : (s.setCompare o).w = s.w := rfl
@[simp] theorem State.setCompare_x (s : State) (o : CmpResult) : (s.setCompare o).x = s.x := rfl
@[simp] theorem State.setCompare_y (s : State) (o : CmpResult) : (s.setCompare o).y = s.y := rfl
@[simp] theorem State.setCompare_z (s : State) (o : CmpResult) : (s.setCompare o).z = s.z := rfl
@[simp] theorem State.setCompare_pc (s : State) (o : CmpResult) : (s.setCompare o).pc = s.pc := rfl
@[simp] theorem State.setCompare_sp (s : State) (o : CmpResult) : (s.setCompare o).sp = s.sp := rfl
@[simp] theorem State.setCompare_flags (s : State) (o : CmpResult) : (s.setCompare o).flags = putBit bitN o.n (putBit bitZ o.z (putBit bitC o.c s.flags)) := rfl
@[simp] theorem State.setCompare_status (s : State) (o : CmpResult) : (s.setCompare o).status = s.status := rfl
@[simp] theorem State.setCompare_startAddr (s : State) (o : CmpResult) : (s.setCompare o).startAddr = s.startAddr := rfl
@[simp] theorem State.setCompare_endAddr (s : State) (o : CmpResult) : (s.setCompare o).endAddr = s.endAddr := rfl
@[simp] theorem State.setCompare_fault (s : State) (o : CmpResult) : (s.setCompare o).fault = s.fault := rfl
@[simp] theorem State.setCompare_mem (s : State) (o : CmpResult) : (s.setCompare o).mem = s.mem := rfl
@[simp] theorem State.setCompare_config (s : State) (o : CmpResult) : (s.setCompare o).config = s.config := rfl
@[simp] theorem State.setCompare_host (s : State) (o : CmpResult) : (s.setCompare o).host = s.host := rfl
@[simp] theorem State.setCompare_reg (s : State) (o : CmpResult) (r : Reg) : (s.setCompare o).reg r = s.reg r := by cases r <;> rfl
@[simp] theorem State.setCompare_byteAt (s : State) (o : CmpResult) (n : Nat) : (s.setCompare o).byteAt n = s.byteAt n := rfl
@[simp] theorem State.setCompare_stackCell (s : State) (o : CmpResult) : (s.setCompare o).stackCell = s.stackCell := rfl

-- State.setShift
@[simp] theorem State.setShift_a (s : State) (o : Byte × Bool) : (s.setShift o).a = s.a := rfl
@[simp] theorem State.setShift_w (s : State) (o : Byte × Bool) : (s.setShift o).w = s.w := rfl
@[simp] theorem State.setShift_x (s : State) (o : Byte × Bool) : (s.setShift o).x = s.x := rfl
@[simp] theorem State.setShift_y (s : State) (o : Byte × Bool) : (s.setShift o).y = s.y := rfl
@[simp] theorem State.setShift_z (s : State) (o : Byte × Bool) : (s.setShift o).z = s.z := rfl
@[simp] theorem State.setShift_pc (s : State) (o : Byte × Bool) : (s.setShift o).pc = s.pc := rfl
@[simp] theorem State.setShift_sp (s : State) (o : Byte × Bool) : (s.setShift o).sp = s.sp := rfl
@[simp] theorem State.setShift_flags (s : State) (o : Byte × Bool) : (s.setShift o).flags = putBit bitN (o.1.getLsbD 7) (putBit bitC o.2 s.flags) := rfl
@[simp] theorem State.setShift_status (s : State) (o : Byte × Bool) : (s.setShift o).status = s.status := rfl
@[simp] theorem State.setShift_startAddr (s : State) (o : Byte × Bool) : (s.setShift o).startAddr = s.startAddr := rfl
@[simp] theorem State.setShift_endAddr (s : State) (o : Byte × Bool) : (s.setShift o).endAddr = s.endAddr := rfl
@[simp] theorem State.setShift_fault (s : State) (o : Byte × Bool) : (s.setShift o).fault = s.fault := rfl
@[simp] theorem State.setShift_mem (s : State) (o : Byte × Bool) : (s.setShift o).mem = s.mem := rfl
@[simp] theorem State.setShift_config (s : State) (o : Byte × Bool) : (s.setShift o).config = s.config := rfl
@[simp] theorem State.setShift_host (s : State) (o : Byte × Bool) : (s.setShift o).host = s.host := rfl
@[simp] theorem State.setShift_reg (s : State) (o : Byte × Bool) (r : Reg) : (s.setShift o).reg r = s.reg r := by cases r <;> rfl
@[simp] theorem State.setShift_byteAt (s : State) (o : Byte × Bool) (n : Nat) : (s.setShift o).byteAt n = s.byteAt n := rfl
@[simp] theorem State.setShift_stackCell (s : State) (o : Byte × Bool) : (s.setShift o).stackCell = s.stackCell := rfl

-- State.setRotateAcc
@[simp] theorem State.setRotateAcc_a (s : State) (o : Byte × Bool) : (s.setRotateAcc o).a = s.a := rfl
@[simp] theorem State.setRotateAcc_w (s : State) (o : Byte × Bool) : (s.setRotateAcc o).w = s.w := rfl
@[simp] theorem State.setRotateAcc_x (s : State) (o : Byte × Bool) : (s.setRotateAcc o).x = s.x := rfl
@[simp] theorem State.setRotateAcc_y (s : State) (o : Byte × Bool) : (s.setRotateAcc o).y = s.y := rfl
@[simp] theorem State.setRotateAcc_z (s : State) (o : Byte × Bool) : (s.setRotateAcc o).z = s.z := rfl
@[simp] theorem State.setRotateAcc_pc (s : State) (o : Byte × Bool) : (s.setRotateAcc o).pc = s.pc := rfl
@[simp] theorem State.setRotateAcc_sp (s : State) (o : Byte × Bool) : (s.setRotateAcc o).sp = s.sp := rfl
@[simp] theorem State.setRotateAcc_flags (s : State) (o : Byte × Bool) : (s.setRotateAcc o).flags = putBit bitZ (decide (o.1 = 0)) (putBit bitN (o.1.getLsbD 7) (putBit bitC o.2 s.flags)) := rfl
@[simp] theorem State.setRotateAcc_status (s : State) (o : Byte × Bool) : (s.setRotateAcc o).status = s.status := rfl
@[simp] theorem State.setRotateAcc_startAddr (s : State) (o : Byte × Bool) : (s.setRotateAcc o).startAddr = s.startAddr := rfl
@[simp] theorem State.setRotateAcc_endAddr (s : State) (o : Byte × Bool) : (s.setRotateAcc o).endAddr = s.endAddr := rfl
@[simp] theorem State.setRotateAcc_fault (s : State) (o : Byte × Bool) : (s.setRotateAcc o).fault = s.fault := rfl
@[simp] theorem State.setRotateAcc_mem (s : State) (o : Byte × Bool) : (s.setRotateAcc o).mem = s.mem := rfl
@[simp] theorem State.setRotateAcc_config (s : State) (o : Byte × Bool) : (s.setRotateAcc o).config = s.config := rfl
@[simp] theorem State.setRotateAcc_host (s : State) (o : Byte × Bool) : (s.setRotateAcc o).host = s.host := rfl
@[simp] theorem State.setRotateAcc_reg (s : State) (o : Byte × Bool) (r : Reg) : (s.setRotateAcc o).reg r = s.reg r := by cases r <;> rfl
@[simp] theorem State.setRotateAcc_byteAt (s : State) (o : Byte × Bool) (n : Nat) : (s.setRotateAcc o).byteAt n = s.byteAt n := rfl
@[simp] theorem State.setRotateAcc_stackCell (s : State) (o : Byte × Bool) : (s.setRotateAcc o).stackCell = s.stackCell := rfl

-- State.putByte
@[simp] theorem State.putByte_a (s : State) (addr : Nat) (v : Byte) : (s.putByte addr v).a = s.a := rfl
@[simp] theorem State.putByte_w (s : State) (addr : Nat) (v : Byte) : (s.putByte addr v).w = s.w := rfl
@[simp] theorem State.putByte_x (s : State) (addr : Nat) (v : Byte) : (s.putByte addr v).x = s.x := rfl
@[simp] theorem State.putByte_y (s : State) (addr : Nat) (v : Byte) : (s.putByte addr v).y = s.y := rfl
@[simp] theorem State.putByte_z (s : State) (addr : Nat) (v : Byte) : (s.putByte addr v).z = s.z := rfl
@[simp] theorem State.putByte_pc (s : State) (addr : Nat) (v : Byte) : (s.putByte addr v).pc = s.pc := rfl
@[simp] theorem State.putByte_sp (s : State) (addr : Nat) (v : Byte) : (s.putByte addr v).sp = s.sp := rfl
@[simp] theorem State.putByte_flags (s : State) (addr : Nat) (v : Byte) : (s.putByte addr v).flags = s.flags := rfl
@[simp] theorem State.putByte_status (s : State) (addr : Nat) (v : Byte) : (s.putByte addr v).status = s.status := rfl
@[simp] theorem State.putByte_startAddr (s : State) (addr : Nat) (v : Byte) : (s.putByte addr v).startAddr = s.startAddr := rfl
@[simp] theorem State.putByte_endAddr (s : State) (addr : Nat) (v : Byte) : (s.putByte addr v).endAddr = s.endAddr := rfl
@[simp] theorem State.putByte_fault (s : State) (addr : Nat) (v : Byte) : (s.putByte addr v).fault = s.fault := rfl
@[simp] theorem State.putByte_mem (s : State) (addr : Nat) (v : Byte) : (s.putByte addr v).mem = s.mem.write addr v := rfl
@[simp] theorem State.putByte_config (s : State) (addr : Nat) (v : Byte) : (s.putByte addr v).config = s.config := rfl
@[simp] theorem State.putByte_host (s : State) (addr : Nat) (v : Byte) : (s.putByte addr v).host = s.host := rfl
@[simp] theorem State.putByte_reg (s : State) (addr : Nat) (v : Byte) (r : Reg) : (s.putByte addr v).reg r = s.reg r := by cases r <;> rfl
@[simp] theorem State.putByte_readFlags (s : State) (addr : Nat) (v : Byte) : (s.putByte addr v).readFlags = s.readFlags := rfl
@[simp] theorem State.putByte_stackCell (s : State) (addr : Nat) (v : Byte) : (s.putByte addr v).stackCell = s.stackCell := rfl

-- State.setSp
@[simp] theorem State.setSp_a (s : State) (v : Byte) : (s.setSp v).a = s.a := rfl
@[simp] theorem State.setSp_w (s : State) (v : Byte) : (s.setSp v).w = s.w := rfl
@[simp] theorem State.setSp_x (s : State) (v : Byte) : (s.setSp v).x = s.x := rfl
@[simp] theorem State.setSp_y (s : State) (v : Byte) : (s.setSp v).y = s.y := rfl
@[simp] theorem State.setSp_z (s : State) (v : Byte) : (s.setSp v).z = s.z := rfl
@[simp] theorem State.setSp_pc (s : State) (v : Byte) : (s.setSp v).pc = s.pc := rfl
@[simp] theorem State.setSp_sp (s : State) (v : Byte) : (s.setSp v).sp = v := rfl
@[simp] theorem State.setSp_flags (s : State) (v : Byte) : (s.setSp v).flags = s.flags := rfl
@[simp] theorem State.setSp_status (s : State) (v : Byte) : (s.setSp v).status = s.status := rfl
@[simp] theorem State.setSp_startAddr (s : State) (v : Byte) : (s.setSp v).startAddr = s.startAddr := rfl
@[simp] theorem State.setSp_endAddr (s : State) (v : Byte) : (s.setSp v).endAddr = s.endAddr := rfl
@[simp] theorem State.setSp_fault (s : State) (v : Byte) : (s.setSp v).fault = s.fault := rfl
@[simp] theorem State.setSp_mem (s : State) (v : Byte) : (s.setSp v).mem = s.mem := rfl
@[simp] theorem State.setSp_config (s : State) (v : Byte) : (s.setSp v).config = s.config := rfl
@[simp] theorem State.setSp_host (s : State) (v : Byte) : (s.setSp v).host = s.host := rfl
@[simp] theorem State.setSp_reg (s : State) (v : Byte) (r : Reg) : (s.setSp v).reg r = s.reg r := by cases r <;> rfl
@[simp] theorem State.setSp_byteAt (s : State) (v : Byte) (n : Nat) : (s.setSp v).byteAt n = s.byteAt n := rfl
@[simp] theorem State.setSp_readFlags (s : State) (v : Byte) : (s.setSp v).readFlags = s.readFlags := rfl

-- State.advance
@[simp] theorem State.advance_a (s : State) (base : Word) : (s.advance base).a = s.a := rfl
@[simp] theorem State.advance_w (s : State) (base : Word) : (s.advance base).w = s.w := rfl
@[simp] theorem State.advance_x (s : State) (base : Word) : (s.advance base).x = s.x := rfl
@[simp] theorem State.advance_y (s : State) (base : Word) : (s.advance base).y = s.y := rfl
@[simp] theorem State.advance_z (s : State) (base : Word) : (s.advance base).z = s.z := rfl
@[simp] theorem State.advance_pc (s : State) (base : Word) : (s.advance base).pc = base + instrWidth := rfl
@[simp] theorem State.advance_sp (s : State) (base : Word) : (s.advance base).sp = s.sp := rfl
@[simp] theorem State.advance_flags (s : State) (base : Word) : (s.advance base).flags = s.flags := rfl
@[simp] theorem State.advance_status (s : State) (base : Word) : (s.advance base).status = s.status := rfl
@[simp] theorem State.advance_startAddr (s : State) (base : Word) : (s.advance base).startAddr = s.startAddr := rfl
@[simp] theorem State.advance_endAddr (s : State) (base : Word) : (s.advance base).endAddr = s.endAddr := rfl
@[simp] theorem State.advance_fault (s : State) (base : Word) : (s.advance base).fault = s.fault := rfl
@[simp] theorem State.advance_mem (s : State) (base : Word) : (s.advance base).mem = s.mem := rfl
@[simp] theorem State.advance_config (s : State) (base : Word) : (s.advance base).config = s.config := rfl
@[simp] theorem State.advance_host (s : State) (base : Word) : (s.advance base).host = s.host := rfl
@[simp] theorem State.advance_reg (s : State) (base : Word) (r : Reg) : (s.advance base).reg r = s.reg r := by cases r <;> rfl
@[simp] theorem State.advance_byteAt (s : State) (base : Word) (n : Nat) : (s.advance base).byteAt n = s.byteAt n := rfl
@[simp] theorem State.advance_readFlags (s : State) (base : Word) : (s.advance base).readFlags = s.readFlags := rfl
@[simp] theorem State.advance_stackCell (s : State) (base : Word) : (s.advance base).stackCell = s.stackCell := rfl

-- State.enterFault
@[simp] theorem State.enterFault_a (s : State) (i : FaultInfo) : (s.enterFault i).a = s.a := rfl
@[simp] theorem State.enterFault_w (s : State) (i : FaultInfo) : (s.enterFault i).w = s.w := rfl
@[simp] theorem State.enterFault_x (s : State) (i : FaultInfo) : (s.enterFault i).x = s.x := rfl
@[simp] theorem State.enterFault_y (s : State) (i : FaultInfo) : (s.enterFault i).y = s.y := rfl
@[simp] theorem State.enterFault_z (s : State) (i : FaultInfo) : (s.enterFault i).z = s.z := rfl
@[simp] theorem State.enterFault_pc (s : State) (i : FaultInfo) : (s.enterFault i).pc = s.pc := rfl
@[simp] theorem State.enterFault_sp (s : State) (i : FaultInfo) : (s.enterFault i).sp = s.sp := rfl
@[simp] theorem State.enterFault_flags (s : State) (i : FaultInfo) : (s.enterFault i).flags = s.flags := rfl
@[simp] theorem State.enterFault_status (s : State) (i : FaultInfo) : (s.enterFault i).status = .faulted := rfl
@[simp] theorem State.enterFault_startAddr (s : State) (i : FaultInfo) : (s.enterFault i).startAddr = s.startAddr := rfl
@[simp] theorem State.enterFault_endAddr (s : State) (i : FaultInfo) : (s.enterFault i).endAddr = s.endAddr := rfl
@[simp] theorem State.enterFault_fault (s : State) (i : FaultInfo) : (s.enterFault i).fault = some { kind := i.kind, code := i.kind.code, pc := s.pc, info := i } := rfl
@[simp] theorem State.enterFault_mem (s : State) (i : FaultInfo) : (s.enterFault i).mem = s.mem := rfl
@[simp] theorem State.enterFault_config (s : State) (i : FaultInfo) : (s.enterFault i).config = s.config := rfl
@[simp] theorem State.enterFault_host (s : State) (i : FaultInfo) : (s.enterFault i).host = s.host := rfl
@[simp] theorem State.enterFault_reg (s : State) (i : FaultInfo) (r : Reg) : (s.enterFault i).reg r = s.reg r := by cases r <;> rfl
@[simp] theorem State.enterFault_byteAt (s : State) (i : FaultInfo) (n : Nat) : (s.enterFault i).byteAt n = s.byteAt n := rfl
@[simp] theorem State.enterFault_readFlags (s : State) (i : FaultInfo) : (s.enterFault i).readFlags = s.readFlags := rfl
@[simp] theorem State.enterFault_stackCell (s : State) (i : FaultInfo) : (s.enterFault i).stackCell = s.stackCell := rfl

-- State.halt
@[simp] theorem State.halt_a (s : State) : (s.halt).a = s.a := rfl
@[simp] theorem State.halt_w (s : State) : (s.halt).w = s.w := rfl
@[simp] theorem State.halt_x (s : State) : (s.halt).x = s.x := rfl
@[simp] theorem State.halt_y (s : State) : (s.halt).y = s.y := rfl
@[simp] theorem State.halt_z (s : State) : (s.halt).z = s.z := rfl
@[simp] theorem State.halt_pc (s : State) : (s.halt).pc = s.pc := rfl
@[simp] theorem State.halt_sp (s : State) : (s.halt).sp = s.sp := rfl
@[simp] theorem State.halt_flags (s : State) : (s.halt).flags = s.flags := rfl
@[simp] theorem State.halt_status (s : State) : (s.halt).status = .halted := rfl
@[simp] theorem State.halt_startAddr (s : State) : (s.halt).startAddr = s.startAddr := rfl
@[simp] theorem State.halt_endAddr (s : State) : (s.halt).endAddr = s.endAddr := rfl
@[simp] theorem State.halt_fault (s : State) : (s.halt).fault = s.fault := rfl
@[simp] theorem State.halt_mem (s : State) : (s.halt).mem = s.mem := rfl
@[simp] theorem State.halt_config (s : State) : (s.halt).config = s.config := rfl
@[simp] theorem State.halt_host (s : State) : (s.halt).host = s.host := rfl
@[simp] theorem State.halt_reg (s : State) (r : Reg) : (s.halt).reg r = s.reg r := by cases r <;> rfl
@[simp] theorem State.halt_byteAt (s : State) (n : Nat) : (s.halt).byteAt n = s.byteAt n := rfl
@[simp] theorem State.halt_readFlags (s : State) : (s.halt).readFlags = s.readFlags := rfl
@[simp] theorem State.halt_stackCell (s : State) : (s.halt).stackCell = s.stackCell := rfl

-- State.takeEvent
@[simp] theorem State.takeEvent_a (s : State) : (s.takeEvent).a = s.a := rfl
@[simp] theorem State.takeEvent_w (s : State) : (s.takeEvent).w = s.w := rfl
@[simp] theorem State.takeEvent_x (s : State) : (s.takeEvent).x = s.x := rfl
@[simp] theorem State.takeEvent_y (s : State) : (s.takeEvent).y = s.y := rfl
@[simp] theorem State.takeEvent_z (s : State) : (s.takeEvent).z = s.z := rfl
@[simp] theorem State.takeEvent_pc (s : State) : (s.takeEvent).pc = s.pc := rfl
@[simp] theorem State.takeEvent_sp (s : State) : (s.takeEvent).sp = s.sp := rfl
@[simp] theorem State.takeEvent_flags (s : State) : (s.takeEvent).flags = s.flags := rfl
@[simp] theorem State.takeEvent_status (s : State) : (s.takeEvent).status = s.status := rfl
@[simp] theorem State.takeEvent_startAddr (s : State) : (s.takeEvent).startAddr = s.startAddr := rfl
@[simp] theorem State.takeEvent_endAddr (s : State) : (s.takeEvent).endAddr = s.endAddr := rfl
@[simp] theorem State.takeEvent_fault (s : State) : (s.takeEvent).fault = s.fault := rfl
@[simp] theorem State.takeEvent_mem (s : State) : (s.takeEvent).mem = s.mem := rfl
@[simp] theorem State.takeEvent_config (s : State) : (s.takeEvent).config = s.config := rfl
@[simp] theorem State.takeEvent_host (s : State) : (s.takeEvent).host = { s.host with events := s.host.events.tail } := rfl
@[simp] theorem State.takeEvent_reg (s : State) (r : Reg) : (s.takeEvent).reg r = s.reg r := by cases r <;> rfl
@[simp] theorem State.takeEvent_byteAt (s : State) (n : Nat) : (s.takeEvent).byteAt n = s.byteAt n := rfl
@[simp] theorem State.takeEvent_readFlags (s : State) : (s.takeEvent).readFlags = s.readFlags := rfl
@[simp] theorem State.takeEvent_stackCell (s : State) : (s.takeEvent).stackCell = s.stackCell := rfl

-- State.enterRunning
@[simp] theorem State.enterRunning_a (s : State) (len : Word) : (s.enterRunning len).a = s.a := rfl
@[simp] theorem State.enterRunning_w (s : State) (len : Word) : (s.enterRunning len).w = s.w := rfl
@[simp] theorem State.enterRunning_x (s : State) (len : Word) : (s.enterRunning len).x = s.x := rfl
@[simp] theorem State.enterRunning_y (s : State) (len : Word) : (s.enterRunning len).y = s.y := rfl
@[simp] theorem State.enterRunning_z (s : State) (len : Word) : (s.enterRunning len).z = s.z := rfl
@[simp] theorem State.enterRunning_pc (s : State) (len : Word) : (s.enterRunning len).pc = s.startAddr + BitVec.ofNat 16 headerSize := rfl
@[simp] theorem State.enterRunning_sp (s : State) (len : Word) : (s.enterRunning len).sp = s.sp := rfl
@[simp] theorem State.enterRunning_flags (s : State) (len : Word) : (s.enterRunning len).flags = s.flags := rfl
@[simp] theorem State.enterRunning_status (s : State) (len : Word) : (s.enterRunning len).status = .running := rfl
@[simp] theorem State.enterRunning_startAddr (s : State) (len : Word) : (s.enterRunning len).startAddr = s.startAddr := rfl
@[simp] theorem State.enterRunning_endAddr (s : State) (len : Word) : (s.enterRunning len).endAddr = s.startAddr.toNat + headerSize + len.toNat := rfl
@[simp] theorem State.enterRunning_fault (s : State) (len : Word) : (s.enterRunning len).fault = s.fault := rfl
@[simp] theorem State.enterRunning_mem (s : State) (len : Word) : (s.enterRunning len).mem = s.mem := rfl
@[simp] theorem State.enterRunning_config (s : State) (len : Word) : (s.enterRunning len).config = s.config := rfl
@[simp] theorem State.enterRunning_host (s : State) (len : Word) : (s.enterRunning len).host = s.host := rfl
@[simp] theorem State.enterRunning_reg (s : State) (len : Word) (r : Reg) : (s.enterRunning len).reg r = s.reg r := by cases r <;> rfl
@[simp] theorem State.enterRunning_byteAt (s : State) (len : Word) (n : Nat) : (s.enterRunning len).byteAt n = s.byteAt n := rfl
@[simp] theorem State.enterRunning_readFlags (s : State) (len : Word) : (s.enterRunning len).readFlags = s.readFlags := rfl
@[simp] theorem State.enterRunning_stackCell (s : State) (len : Word) : (s.enterRunning len).stackCell = s.stackCell := rfl

-- State.resetForStart
@[simp] theorem State.resetForStart_a (s : State) (addr : Word) : (s.resetForStart addr).a = 0 := rfl
@[simp] theorem State.resetForStart_w (s : State) (addr : Word) : (s.resetForStart addr).w = 0 := rfl
@[simp] theorem State.resetForStart_x (s : State) (addr : Word) : (s.resetForStart addr).x = 0 := rfl
@[simp] theorem State.resetForStart_y (s : State) (addr : Word) : (s.resetForStart addr).y = 0 := rfl
@[simp] theorem State.resetForStart_z (s : State) (addr : Word) : (s.resetForStart addr).z = 0 := rfl
@[simp] theorem State.resetForStart_pc (s : State) (addr : Word) : (s.resetForStart addr).pc = 0 := rfl
@[simp] theorem State.resetForStart_sp (s : State) (addr : Word) : (s.resetForStart addr).sp = s.config.spTop := rfl
@[simp] theorem State.resetForStart_flags (s : State) (addr : Word) : (s.resetForStart addr).flags = flagsReset := rfl
@[simp] theorem State.resetForStart_status (s : State) (addr : Word) : (s.resetForStart addr).status = .ready := rfl
@[simp] theorem State.resetForStart_startAddr (s : State) (addr : Word) : (s.resetForStart addr).startAddr = addr := rfl
@[simp] theorem State.resetForStart_endAddr (s : State) (addr : Word) : (s.resetForStart addr).endAddr = 0 := rfl
@[simp] theorem State.resetForStart_fault (s : State) (addr : Word) : (s.resetForStart addr).fault = none := rfl
@[simp] theorem State.resetForStart_mem (s : State) (addr : Word) : (s.resetForStart addr).mem = s.mem := rfl
@[simp] theorem State.resetForStart_config (s : State) (addr : Word) : (s.resetForStart addr).config = s.config := rfl
@[simp] theorem State.resetForStart_host (s : State) (addr : Word) : (s.resetForStart addr).host = s.host := rfl
@[simp] theorem State.resetForStart_byteAt (s : State) (addr : Word) (n : Nat) : (s.resetForStart addr).byteAt n = s.byteAt n := rfl

-- State.setReg
@[simp] theorem State.setReg_pc (s : State) (r : Reg) (v : Byte) : (s.setReg r v).pc = s.pc := by cases r <;> rfl
@[simp] theorem State.setReg_sp (s : State) (r : Reg) (v : Byte) : (s.setReg r v).sp = s.sp := by cases r <;> rfl
@[simp] theorem State.setReg_flags (s : State) (r : Reg) (v : Byte) : (s.setReg r v).flags = s.flags := by cases r <;> rfl
@[simp] theorem State.setReg_status (s : State) (r : Reg) (v : Byte) : (s.setReg r v).status = s.status := by cases r <;> rfl
@[simp] theorem State.setReg_startAddr (s : State) (r : Reg) (v : Byte) : (s.setReg r v).startAddr = s.startAddr := by cases r <;> rfl
@[simp] theorem State.setReg_endAddr (s : State) (r : Reg) (v : Byte) : (s.setReg r v).endAddr = s.endAddr := by cases r <;> rfl
@[simp] theorem State.setReg_fault (s : State) (r : Reg) (v : Byte) : (s.setReg r v).fault = s.fault := by cases r <;> rfl
@[simp] theorem State.setReg_mem (s : State) (r : Reg) (v : Byte) : (s.setReg r v).mem = s.mem := by cases r <;> rfl
@[simp] theorem State.setReg_config (s : State) (r : Reg) (v : Byte) : (s.setReg r v).config = s.config := by cases r <;> rfl
@[simp] theorem State.setReg_host (s : State) (r : Reg) (v : Byte) : (s.setReg r v).host = s.host := by cases r <;> rfl
@[simp] theorem State.setReg_byteAt (s : State) (r : Reg) (v : Byte) (n : Nat) :
    (s.setReg r v).byteAt n = s.byteAt n := by cases r <;> rfl
@[simp] theorem State.setReg_readFlags (s : State) (r : Reg) (v : Byte) : (s.setReg r v).readFlags = s.readFlags := by
  cases r <;> rfl
@[simp] theorem State.setReg_stackCell (s : State) (r : Reg) (v : Byte) : (s.setReg r v).stackCell = s.stackCell := by
  cases r <;> rfl
@[simp] theorem State.setReg_reg_same (s : State) (r : Reg) (v : Byte) : (s.setReg r v).reg r = v := by cases r <;> rfl
theorem State.setReg_reg_other (s : State) {r q : Reg} (v : Byte) (h : q ≠ r) : (s.setReg r v).reg q = s.reg q := by
  cases r <;> cases q <;> first | exact absurd rfl h | rfl
/-- A register after a register write: the value written, or what it held. -/
theorem State.setReg_reg (s : State) (r q : Reg) (v : Byte) : (s.setReg r v).reg q = if q = r then v else s.reg q := by
  by_cases h : q = r
  · subst h; simp
  · simp [h, State.setReg_reg_other s v h]

-- State.powerOn
@[simp] theorem State.powerOn_a (c : Config) : (State.powerOn c).a = 0 := rfl
@[simp] theorem State.powerOn_w (c : Config) : (State.powerOn c).w = 0 := rfl
@[simp] theorem State.powerOn_x (c : Config) : (State.powerOn c).x = 0 := rfl
@[simp] theorem State.powerOn_y (c : Config) : (State.powerOn c).y = 0 := rfl
@[simp] theorem State.powerOn_z (c : Config) : (State.powerOn c).z = 0 := rfl
@[simp] theorem State.powerOn_pc (c : Config) : (State.powerOn c).pc = 0 := rfl
@[simp] theorem State.powerOn_sp (c : Config) : (State.powerOn c).sp = c.spTop := rfl
@[simp] theorem State.powerOn_flags (c : Config) : (State.powerOn c).flags = flagsReset := rfl
@[simp] theorem State.powerOn_status (c : Config) : (State.powerOn c).status = .ready := rfl
@[simp] theorem State.powerOn_startAddr (c : Config) : (State.powerOn c).startAddr = 0 := rfl
@[simp] theorem State.powerOn_endAddr (c : Config) : (State.powerOn c).endAddr = 0 := rfl
@[simp] theorem State.powerOn_fault (c : Config) : (State.powerOn c).fault = none := rfl
@[simp] theorem State.powerOn_mem (c : Config) : (State.powerOn c).mem = [] := rfl
@[simp] theorem State.powerOn_config (c : Config) : (State.powerOn c).config = c := rfl
@[simp] theorem State.powerOn_host (c : Config) : (State.powerOn c).host = { suspend := [], events := [] } := rfl

end Sys2Proof.Machine
end

