-- ==== Sys2Proof/Laws/Flags.lean ====
section
/-! SUPPORT. What one flag write does to each bit of the flags, and how each flag reads (10_state.md R26 to R28). -/

namespace Sys2Proof.Machine

/-- A flag write changes only the named bit (10_state.md R27). -/
theorem getLsbD_putBit {i : Nat} (hi : i < 8) (b : Bool) (v : Byte) (j : Nat) :
    (putBit i b v).getLsbD j = if j = i then b else v.getLsbD j := by
  unfold putBit
  by_cases hj : j < 8
  · cases b
    · by_cases h : j = i
      · subst h; simp [hj]
      · by_cases hlt : j < i
        · simp [h, hlt, hj]
        · have : j - i ≠ 0 := by omega
          simp [h, hlt, this, hj]
    · by_cases h : j = i
      · subst h; simp [hj]
      · by_cases hlt : j < i
        · simp [h, hlt]
        · have : j - i ≠ 0 := by omega
          simp [h, hlt, this]
  · have hout : ∀ u : Byte, u.getLsbD j = false := fun u => BitVec.getLsbD_of_ge u j (by omega)
    simp [hout, show j ≠ i by omega]

/-- The always-1 bit is bit 5 (10_state.md R26, R28). -/
theorem getLsbD_alwaysOne (j : Nat) : alwaysOne.getLsbD j = decide (j = 5) := by
  by_cases hj : j < 8
  · exact (by decide : ∀ k : Fin 8, alwaysOne.getLsbD k.val = decide (k.val = 5)) ⟨j, hj⟩
  · rw [BitVec.getLsbD_of_ge _ j (by omega)]
    simp only [Bool.false_eq, decide_eq_false_iff_not]
    omega

/-- A bit of the flags as they read: bit 5 is 1, every other bit is the stored one (10_state.md R28). -/
theorem State.getLsbD_readFlags (s : State) (j : Nat) :
    s.readFlags.getLsbD j = if j = 5 then true else s.flags.getLsbD j := by
  rw [State.readFlags, BitVec.getLsbD_or, getLsbD_alwaysOne]
  by_cases h : j = 5 <;> simp [h]

theorem State.flagN_eq (s : State) : s.flagN = s.flags.getLsbD 7 := by
  rw [State.flagN, State.getLsbD_readFlags]; rfl

theorem State.flagV_eq (s : State) : s.flagV = s.flags.getLsbD 6 := by
  rw [State.flagV, State.getLsbD_readFlags]; rfl

theorem State.flagZ_eq (s : State) : s.flagZ = s.flags.getLsbD 1 := by
  rw [State.flagZ, State.getLsbD_readFlags]; rfl

theorem State.flagC_eq (s : State) : s.flagC = s.flags.getLsbD 0 := by
  rw [State.flagC, State.getLsbD_readFlags]; rfl

theorem getLsbD_putBit_N (b : Bool) (v : Byte) (j : Nat) :
    (putBit bitN b v).getLsbD j = if j = 7 then b else v.getLsbD j := getLsbD_putBit (by decide) b v j

theorem getLsbD_putBit_V (b : Bool) (v : Byte) (j : Nat) :
    (putBit bitV b v).getLsbD j = if j = 6 then b else v.getLsbD j := getLsbD_putBit (by decide) b v j

theorem getLsbD_putBit_Z (b : Bool) (v : Byte) (j : Nat) :
    (putBit bitZ b v).getLsbD j = if j = 1 then b else v.getLsbD j := getLsbD_putBit (by decide) b v j

theorem getLsbD_putBit_C (b : Bool) (v : Byte) (j : Nat) :
    (putBit bitC b v).getLsbD j = if j = 0 then b else v.getLsbD j := getLsbD_putBit (by decide) b v j

/-- A whole-byte write leaves every bit as written but bit 5, which is 1 (10_state.md R28). -/
theorem getLsbD_or_alwaysOne (v : Byte) (j : Nat) :
    (v ||| alwaysOne).getLsbD j = if j = 5 then true else v.getLsbD j := by
  rw [BitVec.getLsbD_or, getLsbD_alwaysOne]
  by_cases h : j = 5 <;> simp [h]

/-! What each shared flag write leaves in each bit of the flags as they read, and so in each flag. -/

/-- The bits after `setNZ` (40_alu.md R111). -/
theorem State.setNZ_bit (s : State) (v : Byte) (j : Nat) :
    (s.setNZ v).readFlags.getLsbD j =
      if j = 1 then decide (v = 0) else if j = 7 then v.getLsbD 7 else s.readFlags.getLsbD j := by
  simp only [State.getLsbD_readFlags, State.setNZ_flags, getLsbD_putBit_N, getLsbD_putBit_Z, nz]
  by_cases h : j = 5
  · subst h; simp
  · simp only [h, if_false]

@[simp] theorem State.setNZ_flagN (s : State) (v : Byte) : (s.setNZ v).flagN = v.getLsbD 7 := State.setNZ_bit s v 7

@[simp] theorem State.setNZ_flagV (s : State) (v : Byte) : (s.setNZ v).flagV = s.flagV := State.setNZ_bit s v 6

@[simp] theorem State.setNZ_flagZ (s : State) (v : Byte) : (s.setNZ v).flagZ = decide (v = 0) := State.setNZ_bit s v 1

@[simp] theorem State.setNZ_flagC (s : State) (v : Byte) : (s.setNZ v).flagC = s.flagC := State.setNZ_bit s v 0

/-- The bits after `setArith` (47_arith_incdec.md R220, R221). -/
theorem State.setArith_bit (s : State) (o : AddResult) (j : Nat) :
    (s.setArith o).readFlags.getLsbD j =
      if j = 1 then decide (o.r = 0) else if j = 7 then o.r.getLsbD 7 else
        if j = 6 then o.overflow else if j = 0 then o.carry else s.readFlags.getLsbD j := by
  simp only [State.getLsbD_readFlags, State.setArith_flags, getLsbD_putBit_N, getLsbD_putBit_V, getLsbD_putBit_Z,
    getLsbD_putBit_C, nz]
  by_cases h : j = 5
  · subst h; simp
  · simp only [h, if_false]

@[simp] theorem State.setArith_flagN (s : State) (o : AddResult) : (s.setArith o).flagN = o.r.getLsbD 7 :=
  State.setArith_bit s o 7

@[simp] theorem State.setArith_flagV (s : State) (o : AddResult) : (s.setArith o).flagV = o.overflow :=
  State.setArith_bit s o 6

@[simp] theorem State.setArith_flagZ (s : State) (o : AddResult) : (s.setArith o).flagZ = decide (o.r = 0) :=
  State.setArith_bit s o 1

@[simp] theorem State.setArith_flagC (s : State) (o : AddResult) : (s.setArith o).flagC = o.carry :=
  State.setArith_bit s o 0

/-- The bits after `setCompare` (45_compare_bitwise.md R195). -/
theorem State.setCompare_bit (s : State) (o : CmpResult) (j : Nat) :
    (s.setCompare o).readFlags.getLsbD j =
      if j = 7 then o.n else if j = 1 then o.z else if j = 0 then o.c else s.readFlags.getLsbD j := by
  simp only [State.getLsbD_readFlags, State.setCompare_flags, getLsbD_putBit_N, getLsbD_putBit_Z, getLsbD_putBit_C]
  by_cases h : j = 5
  · subst h; simp
  · simp only [h, if_false]

@[simp] theorem State.setCompare_flagN (s : State) (o : CmpResult) : (s.setCompare o).flagN = o.n :=
  State.setCompare_bit s o 7

@[simp] theorem State.setCompare_flagV (s : State) (o : CmpResult) : (s.setCompare o).flagV = s.flagV :=
  State.setCompare_bit s o 6

@[simp] theorem State.setCompare_flagZ (s : State) (o : CmpResult) : (s.setCompare o).flagZ = o.z :=
  State.setCompare_bit s o 1

@[simp] theorem State.setCompare_flagC (s : State) (o : CmpResult) : (s.setCompare o).flagC = o.c :=
  State.setCompare_bit s o 0

/-- The bits after `setShift` (46_rotate_shift.md R212, R213). -/
theorem State.setShift_bit (s : State) (o : Byte × Bool) (j : Nat) :
    (s.setShift o).readFlags.getLsbD j =
      if j = 7 then o.1.getLsbD 7 else if j = 0 then o.2 else s.readFlags.getLsbD j := by
  simp only [State.getLsbD_readFlags, State.setShift_flags, getLsbD_putBit_N, getLsbD_putBit_C]
  by_cases h : j = 5
  · subst h; simp
  · simp only [h, if_false]

@[simp] theorem State.setShift_flagN (s : State) (o : Byte × Bool) : (s.setShift o).flagN = o.1.getLsbD 7 :=
  State.setShift_bit s o 7

@[simp] theorem State.setShift_flagV (s : State) (o : Byte × Bool) : (s.setShift o).flagV = s.flagV :=
  State.setShift_bit s o 6

@[simp] theorem State.setShift_flagZ (s : State) (o : Byte × Bool) : (s.setShift o).flagZ = s.flagZ :=
  State.setShift_bit s o 1

@[simp] theorem State.setShift_flagC (s : State) (o : Byte × Bool) : (s.setShift o).flagC = o.2 :=
  State.setShift_bit s o 0

/-- The bits after `setRotateAcc` (46_rotate_shift.md R210, R211). -/
theorem State.setRotateAcc_bit (s : State) (o : Byte × Bool) (j : Nat) :
    (s.setRotateAcc o).readFlags.getLsbD j =
      if j = 1 then decide (o.1 = 0) else if j = 7 then o.1.getLsbD 7 else if j = 0 then o.2 else s.readFlags.getLsbD j := by
  simp only [State.getLsbD_readFlags, State.setRotateAcc_flags, getLsbD_putBit_N, getLsbD_putBit_Z, getLsbD_putBit_C]
  by_cases h : j = 5
  · subst h; simp
  · simp only [h, if_false]

@[simp] theorem State.setRotateAcc_flagN (s : State) (o : Byte × Bool) : (s.setRotateAcc o).flagN = o.1.getLsbD 7 :=
  State.setRotateAcc_bit s o 7

@[simp] theorem State.setRotateAcc_flagV (s : State) (o : Byte × Bool) : (s.setRotateAcc o).flagV = s.flagV :=
  State.setRotateAcc_bit s o 6

@[simp] theorem State.setRotateAcc_flagZ (s : State) (o : Byte × Bool) : (s.setRotateAcc o).flagZ = decide (o.1 = 0) :=
  State.setRotateAcc_bit s o 1

@[simp] theorem State.setRotateAcc_flagC (s : State) (o : Byte × Bool) : (s.setRotateAcc o).flagC = o.2 :=
  State.setRotateAcc_bit s o 0

@[simp] theorem State.advance_flagN (s : State) (base : Word) : (s.advance base).flagN = s.flagN := rfl

@[simp] theorem State.advance_flagV (s : State) (base : Word) : (s.advance base).flagV = s.flagV := rfl

@[simp] theorem State.advance_flagZ (s : State) (base : Word) : (s.advance base).flagZ = s.flagZ := rfl

@[simp] theorem State.advance_flagC (s : State) (base : Word) : (s.advance base).flagC = s.flagC := rfl

@[simp] theorem State.putByte_flagN (s : State) (a : Nat) (v : Byte) : (s.putByte a v).flagN = s.flagN := rfl

@[simp] theorem State.putByte_flagV (s : State) (a : Nat) (v : Byte) : (s.putByte a v).flagV = s.flagV := rfl

@[simp] theorem State.putByte_flagZ (s : State) (a : Nat) (v : Byte) : (s.putByte a v).flagZ = s.flagZ := rfl

@[simp] theorem State.putByte_flagC (s : State) (a : Nat) (v : Byte) : (s.putByte a v).flagC = s.flagC := rfl

@[simp] theorem State.setSp_flagN (s : State) (v : Byte) : (s.setSp v).flagN = s.flagN := rfl

@[simp] theorem State.setSp_flagV (s : State) (v : Byte) : (s.setSp v).flagV = s.flagV := rfl

@[simp] theorem State.setSp_flagZ (s : State) (v : Byte) : (s.setSp v).flagZ = s.flagZ := rfl

@[simp] theorem State.setSp_flagC (s : State) (v : Byte) : (s.setSp v).flagC = s.flagC := rfl

@[simp] theorem State.setReg_flagN (s : State) (r : Reg) (v : Byte) : (s.setReg r v).flagN = s.flagN := by
  cases r <;> rfl

@[simp] theorem State.setReg_flagV (s : State) (r : Reg) (v : Byte) : (s.setReg r v).flagV = s.flagV := by
  cases r <;> rfl

@[simp] theorem State.setReg_flagZ (s : State) (r : Reg) (v : Byte) : (s.setReg r v).flagZ = s.flagZ := by
  cases r <;> rfl

@[simp] theorem State.setReg_flagC (s : State) (r : Reg) (v : Byte) : (s.setReg r v).flagC = s.flagC := by
  cases r <;> rfl

end Sys2Proof.Machine
end

