-- ==== Sys2Proof/Laws/Memory.lean ====
section
/-! SUPPORT. The laws of memory: a read after a write, that every memory operation keeps the canonical form, and that two
memories in canonical form that read the same are the same list. -/

namespace Sys2Proof.Machine

@[simp] theorem Memory.read_nil (a : Nat) : Memory.read [] a = unlistedByte := rfl

theorem Memory.read_cons (b : Nat) (u : Byte) (m : Memory) (a : Nat) :
    Memory.read ((b, u) :: m) a = if b = a then u else Memory.read m a := rfl

/-- Addresses below the lowest listed one read as the unlisted byte. -/
theorem Memory.read_below {lo a : Nat} {m : Memory} (h : m.wfFrom lo = true) (ha : a < lo) : m.read a = unlistedByte := by
  induction m generalizing lo with
  | nil => rfl
  | cons c m ih =>
    obtain ⟨b, u⟩ := c
    simp only [Memory.wfFrom, Bool.and_eq_true, decide_eq_true_eq] at h
    rw [Memory.read_cons, if_neg (by omega)]
    exact ih h.2 (by omega)

theorem Memory.wfFrom_mono {lo lo' : Nat} {m : Memory} (h : m.wfFrom lo = true) (hl : lo' ≤ lo) : m.wfFrom lo' = true := by
  cases m with
  | nil => rfl
  | cons c m =>
    obtain ⟨b, u⟩ := c
    simp only [Memory.wfFrom, Bool.and_eq_true, decide_eq_true_eq] at h ⊢
    exact ⟨⟨⟨by omega, h.1.1.2⟩, h.1.2⟩, h.2⟩

theorem Memory.read_listed (a : Nat) (v : Byte) (m : Memory) (n : Nat) (hm : m.read a = unlistedByte ∨ v ≠ unlistedByte) :
    (Memory.listed a v m).read n = if n = a then v else m.read n := by
  unfold Memory.listed
  by_cases hv : v = unlistedByte
  · simp only [hv, if_true]
    by_cases hn : n = a
    · subst hn; simpa [hv] using hm
    · simp [hn]
  · simp only [hv, if_false, Memory.read_cons]
    by_cases hn : a = n
    · simp [hn]
    · simp [hn, Ne.symm hn]

theorem Memory.wfFrom_listed {lo a : Nat} {v : Byte} {m : Memory} (hlo : lo ≤ a) (ha : a < memSize)
    (h : m.wfFrom (a + 1) = true) : (Memory.listed a v m).wfFrom lo = true := by
  unfold Memory.listed
  split
  · exact Memory.wfFrom_mono h (by omega)
  · simp [Memory.wfFrom, *]

/-- A read after a write, in a memory in canonical form: the byte written at its address, and elsewhere what was there. -/
theorem Memory.read_write_from {lo a : Nat} {m : Memory} (v : Byte) (h : m.wfFrom lo = true) (n : Nat) :
    (m.write a v).read n = if n = a then v else m.read n := by
  induction m generalizing lo with
  | nil => exact Memory.read_listed a v [] n (.inl rfl)
  | cons c m ih =>
    obtain ⟨b, u⟩ := c
    have hw := h
    simp only [Memory.wfFrom, Bool.and_eq_true, decide_eq_true_eq] at h
    unfold Memory.write
    split
    · rename_i hab
      refine Memory.read_listed a v _ n (.inl ?_)
      rw [Memory.read_cons, if_neg (by omega)]
      exact Memory.read_below h.2 (by omega)
    · split
      · rename_i hab
        subst hab
        rw [Memory.read_listed a v m n (.inl (Memory.read_below h.2 (by omega)))]
        by_cases hn : n = a
        · simp [hn]
        · simp [Memory.read_cons, hn, Ne.symm hn]
      · rename_i hlt hne
        rw [Memory.read_cons, Memory.read_cons, ih h.2]
        by_cases hb : b = n
        · have : n ≠ a := by omega
          simp [hb, this]
        · simp [hb]

theorem Memory.wfFrom_write {lo a : Nat} {v : Byte} {m : Memory} (h : m.wfFrom lo = true) (hlo : lo ≤ a) (ha : a < memSize) :
    (m.write a v).wfFrom lo = true := by
  induction m generalizing lo with
  | nil => exact Memory.wfFrom_listed hlo ha rfl
  | cons c m ih =>
    obtain ⟨b, u⟩ := c
    have hw := h
    simp only [Memory.wfFrom, Bool.and_eq_true, decide_eq_true_eq] at h
    unfold Memory.write
    split
    · refine Memory.wfFrom_listed hlo ha ?_
      simp only [Memory.wfFrom, Bool.and_eq_true, decide_eq_true_eq]
      exact ⟨⟨⟨by omega, h.1.1.2⟩, h.1.2⟩, h.2⟩
    · split
      · rename_i hab
        subst hab
        exact Memory.wfFrom_listed hlo ha h.2
      · simp only [Memory.wfFrom, Bool.and_eq_true, decide_eq_true_eq]
        exact ⟨h.1, ih h.2 (by omega)⟩

/-- A read after a write (20_memory.md R47, R48). -/
theorem Memory.read_write {m : Memory} (h : m.wf = true) (a : Nat) (v : Byte) (n : Nat) :
    (m.write a v).read n = if n = a then v else m.read n := Memory.read_write_from v h n

/-- A write at an address that exists keeps the canonical form. -/
theorem Memory.wf_write {m : Memory} (h : m.wf = true) {a : Nat} (ha : a < memSize) (v : Byte) : (m.write a v).wf = true :=
  Memory.wfFrom_write h (Nat.zero_le a) ha

/-- Storing a byte sequence that fits the space keeps the canonical form. -/
theorem Memory.wf_load {m : Memory} (h : m.wf = true) (a : Nat) (bs : List Byte) (hfit : a + bs.length ≤ memSize) :
    (m.load a bs).wf = true := by
  induction bs generalizing m a with
  | nil => exact h
  | cons v vs ih =>
    simp only [List.length_cons] at hfit
    exact ih (Memory.wf_write h (by omega) v) (a + 1) (by omega)

/-- What memory reads after a byte sequence is stored: the sequence at its addresses, and elsewhere what was there. -/
theorem Memory.read_load {m : Memory} (h : m.wf = true) (a : Nat) (bs : List Byte) (hfit : a + bs.length ≤ memSize) (n : Nat) :
    (m.load a bs).read n = if a ≤ n ∧ n < a + bs.length then bs.getD (n - a) 0 else m.read n := by
  induction bs generalizing m a with
  | nil =>
    simp only [Memory.load, List.length_nil, Nat.add_zero]
    rw [if_neg (by omega)]
  | cons v vs ih =>
    simp only [List.length_cons] at hfit ⊢
    have hw := Memory.wf_write h (a := a) (by omega) v
    rw [Memory.load, ih hw (a + 1) (by omega), Memory.read_write h]
    by_cases h1 : n = a
    · subst h1
      rw [if_neg (by omega), if_pos rfl, if_pos (by omega)]
      simp
    · by_cases h2 : a + 1 ≤ n ∧ n < a + 1 + vs.length
      · rw [if_pos h2, if_pos (by omega)]
        have : n - a = (n - (a + 1)) + 1 := by omega
        rw [this, List.getD_cons_succ]
      · rw [if_neg h2, if_neg h1, if_neg (by omega)]

/-- Two memories in canonical form that read the same at every address are the same list. -/
theorem Memory.ext_of_read {lo : Nat} {m m' : Memory} (h : m.wfFrom lo = true) (h' : m'.wfFrom lo = true)
    (hr : ∀ n, m.read n = m'.read n) : m = m' := by
  induction m generalizing lo m' with
  | nil =>
    cases m' with
    | nil => rfl
    | cons c m' =>
      obtain ⟨b, u⟩ := c
      simp only [Memory.wfFrom, Bool.and_eq_true, decide_eq_true_eq] at h'
      have := hr b
      simp only [Memory.read_nil, Memory.read_cons, if_true] at this
      exact absurd this.symm h'.1.2
  | cons c m ih =>
    obtain ⟨b, u⟩ := c
    have hw := h
    simp only [Memory.wfFrom, Bool.and_eq_true, decide_eq_true_eq] at h
    cases m' with
    | nil =>
      have := hr b
      simp only [Memory.read_nil, Memory.read_cons, if_true] at this
      exact absurd this h.1.2
    | cons c' m' =>
      obtain ⟨b', u'⟩ := c'
      have hw' := h'
      simp only [Memory.wfFrom, Bool.and_eq_true, decide_eq_true_eq] at h'
      have hb : b = b' := by
        rcases Nat.lt_trichotomy b b' with hlt | heq | hgt
        · have := hr b
          rw [Memory.read_cons, if_pos rfl, Memory.read_cons, if_neg (by omega),
            Memory.read_below h'.2 (by omega)] at this
          exact absurd this h.1.2
        · exact heq
        · have := hr b'
          rw [Memory.read_cons, if_neg (by omega), Memory.read_cons, if_pos rfl,
            Memory.read_below h.2 (by omega)] at this
          exact absurd this.symm h'.1.2
      subst hb
      have hu : u = u' := by
        have := hr b
        simpa [Memory.read_cons] using this
      subst hu
      rw [ih h.2 h'.2 fun n => ?_]
      by_cases hn : b = n
      · subst hn
        rw [Memory.read_below h.2 (by omega), Memory.read_below h'.2 (by omega)]
      · have := hr n
        simpa [Memory.read_cons, hn] using this

end Sys2Proof.Machine
end

