-- ==== Sys2Proof/Laws/Ops.lean ====
section
/-! SUPPORT. For each shared operation, once, everything it can do: memory accesses, the stack engine, the end of an
instruction, and the operand reads. -/

namespace Sys2Proof.Machine

@[simp] theorem Res.bind_done {α β : Type} (v : α) (s : State) (k : α → State → Res β) : (Res.done v s).bind k = k v s := rfl

@[simp] theorem Res.bind_raised {α β : Type} (s : State) (k : α → State → Res β) : (Res.raised s).bind k = .raised s := rfl

@[simp] theorem Res.state_done {α : Type} (v : α) (s : State) : (Res.done v s).state = s := rfl

@[simp] theorem Res.state_raised {α : Type} (s : State) : (Res.raised s : Res α).state = s := rfl

@[simp] theorem raise_eq {α : Type} (i : FaultInfo) (s : State) : (raise i s : Res α) = .raised (s.enterFault i) := rfl

/-- A sequence ends done only where each part did. -/
theorem Res.bind_eq_done {α β : Type} {m : Res α} {k : α → State → Res β} {b : β} {t : State} (h : m.bind k = .done b t) :
    ∃ v s, m = .done v s ∧ k v s = .done b t := by
  cases m with
  | done v s => exact ⟨v, s, rfl, h⟩
  | raised s => cases h

/-- A sequence raises where its first part did, or its second part after it. -/
theorem Res.bind_eq_raised {α β : Type} {m : Res α} {k : α → State → Res β} {t : State} (h : m.bind k = .raised t) :
    m = .raised t ∨ ∃ v s, m = .done v s ∧ k v s = .raised t := by
  cases m with
  | done v s => exact .inr ⟨v, s, rfl, h⟩
  | raised s => exact .inl (by cases h; rfl)

@[simp] theorem finish_done (base : Word) (s : State) : finish (.done base s) = .next (s.advance base) := rfl

@[simp] theorem finish_raised (s : State) : finish (.raised s) = .next s := rfl

/-- The end of an instruction always answers a next state: the advance, or the Faulted state (41_cycle.md R133,
60_exceptions.md R243). -/
theorem finish_cases (r : Res Word) :
    (∃ base s, r = .done base s ∧ finish r = .next (s.advance base)) ∨ ∃ s, r = .raised s ∧ finish r = .next s := by
  cases r with
  | done base s => exact .inl ⟨base, s, rfl, rfl⟩
  | raised s => exact .inr ⟨s, rfl, rfl⟩

/-- A `MemRead` inside the space returns the byte and changes nothing (20_memory.md R47). -/
theorem memRead_inside {addr : Nat} (h : addr < memSize) (s : State) : memRead addr s = .done (s.byteAt addr) s :=
  if_neg (by omega)

/-- A `MemRead` outside the space raises AddressFault (20_memory.md R46). -/
theorem memRead_outside {addr : Nat} (h : memSize ≤ addr) (s : State) :
    memRead addr s = .raised (s.enterFault (.address addr)) := if_pos h

/-- A `MemWrite` inside the space stores the byte (20_memory.md R48). -/
theorem memWrite_inside {addr : Nat} (h : addr < memSize) (v : Byte) (s : State) :
    memWrite addr v s = .done () (s.putByte addr v) := if_neg (by omega)

/-- A `MemWrite` outside the space raises AddressFault (20_memory.md R46). -/
theorem memWrite_outside {addr : Nat} (h : memSize ≤ addr) (v : Byte) (s : State) :
    memWrite addr v s = .raised (s.enterFault (.address addr)) := if_pos h

theorem word_lt_memSize (w : Word) : w.toNat < memSize := w.isLt

/-- Every 16-bit address exists (20_memory.md R46). -/
@[simp] theorem memRead_word (w : Word) (s : State) : memRead w.toNat s = .done (s.byteAt w.toNat) s :=
  memRead_inside (word_lt_memSize w) s

@[simp] theorem memWrite_word (w : Word) (v : Byte) (s : State) : memWrite w.toNat v s = .done () (s.putByte w.toNat v) :=
  memWrite_inside (word_lt_memSize w) v s

/-- Every address in page 0 exists (20_memory.md R46). -/
@[simp] theorem memRead_page0 (n : Nat) (s : State) : memRead (n % 256) s = .done (s.byteAt (n % 256)) s :=
  memRead_inside (by unfold memSize; omega) s

@[simp] theorem memWrite_page0 (n : Nat) (v : Byte) (s : State) :
    memWrite (n % 256) v s = .done () (s.putByte (n % 256) v) := memWrite_inside (by unfold memSize; omega) v s

/-- A byte read after a byte is stored (20_memory.md R47, R48). -/
theorem State.byteAt_putByte {s : State} (h : s.mem.wf = true) (a : Nat) (v : Byte) (n : Nat) :
    (s.putByte a v).byteAt n = if n = a then v else s.byteAt n := Memory.read_write h a v n

@[simp] theorem opImm_eq (v : Byte) (s : State) : opImm v s = .done v s := rfl

@[simp] theorem opAbs_eq (addr : Word) (s : State) : opAbs addr s = .done (s.byteAt addr.toNat) s := memRead_word addr s

@[simp] theorem opIdx_eq (zp : Byte) (s : State) : opIdx zp s = .done (s.byteAt (s.indexed zp).toNat) s :=
  memRead_word (s.indexed zp) s

/-- The Indexed address is (a2 + W) mod 256, in page 0 (30_encoding.md R72). -/
@[simp] theorem State.indexed_toNat (zp : Byte) (s : State) : (s.indexed zp).toNat = (zp.toNat + s.w.toNat) % 256 := by
  have : (zp + s.w).toNat < 256 := (zp + s.w).isLt
  simp [State.indexed, zext16, State.reg, BitVec.toNat_setWidth, BitVec.toNat_add]
  omega

/-- Push on a full stack raises and changes nothing else (20_memory.md R62). -/
theorem push_full {s : State} (h : s.sp = s.config.spMin) (v : Byte) : push v s = .raised (s.enterFault .push) := if_pos h

/-- Push writes the cell SP names and moves SP down (20_memory.md R62). -/
theorem push_done {s : State} (h : s.sp ≠ s.config.spMin) (hc : s.stackCell < memSize) (v : Byte) :
    push v s = .done () ((s.putByte s.stackCell v).setSp (s.sp - 1)) := by
  rw [push, if_neg h, memWrite_inside hc]; rfl

/-- Everything Push can do: a fault on a full stack, an out-of-range cell (under an ill-formed configuration only), or the
write. -/
theorem push_cases (v : Byte) (s : State) :
    (s.sp = s.config.spMin ∧ push v s = .raised (s.enterFault .push)) ∨
    (s.sp ≠ s.config.spMin ∧ memSize ≤ s.stackCell ∧ push v s = .raised (s.enterFault (.address s.stackCell))) ∨
    (s.sp ≠ s.config.spMin ∧ s.stackCell < memSize ∧
      push v s = .done () ((s.putByte s.stackCell v).setSp (s.sp - 1))) := by
  by_cases h : s.sp = s.config.spMin
  · exact .inl ⟨h, push_full h v⟩
  · by_cases hc : s.stackCell < memSize
    · exact .inr (.inr ⟨h, hc, push_done h hc v⟩)
    · refine .inr (.inl ⟨h, by omega, ?_⟩)
      rw [push, if_neg h, memWrite_outside (by omega)]; rfl

/-- Pop on an empty stack raises and changes nothing else (20_memory.md R63). -/
theorem pop_empty {s : State} (h : s.sp = s.config.spTop) : pop s = .raised (s.enterFault .pop) := if_pos h

/-- Pop moves SP up, returns the byte there and zeroes its cell (20_memory.md R63). -/
theorem pop_done {s : State} (h : s.sp ≠ s.config.spTop) (hc : (s.setSp (s.sp + 1)).stackCell < memSize) :
    pop s = .done (s.byteAt (s.setSp (s.sp + 1)).stackCell)
      ((s.setSp (s.sp + 1)).putByte (s.setSp (s.sp + 1)).stackCell 0) := by
  rw [pop, if_neg h]
  simp only [memRead_inside hc, memWrite_inside hc, Res.bind_done, State.setSp_byteAt]

/-- Everything Pop can do: a fault on an empty stack, an out-of-range cell (under an ill-formed configuration only), or the
read and the zeroing. -/
theorem pop_cases (s : State) :
    (s.sp = s.config.spTop ∧ pop s = .raised (s.enterFault .pop)) ∨
    (s.sp ≠ s.config.spTop ∧ memSize ≤ (s.setSp (s.sp + 1)).stackCell ∧
      pop s = .raised ((s.setSp (s.sp + 1)).enterFault (.address (s.setSp (s.sp + 1)).stackCell))) ∨
    (s.sp ≠ s.config.spTop ∧ (s.setSp (s.sp + 1)).stackCell < memSize ∧
      pop s = .done (s.byteAt (s.setSp (s.sp + 1)).stackCell)
        ((s.setSp (s.sp + 1)).putByte (s.setSp (s.sp + 1)).stackCell 0)) := by
  by_cases h : s.sp = s.config.spTop
  · exact .inl ⟨h, pop_empty h⟩
  · by_cases hc : (s.setSp (s.sp + 1)).stackCell < memSize
    · exact .inr (.inr ⟨h, hc, pop_done h hc⟩)
    · have ho : memSize ≤ (s.setSp (s.sp + 1)).stackCell := by omega
      refine .inr (.inl ⟨h, ho, ?_⟩)
      rw [pop, if_neg h]
      simp only [memRead_outside ho, Res.bind_raised]

/-- What the configuration's constraints say (00_scope.md R6). -/
theorem Config.wf_iff (c : Config) : c.wf = true ↔
    c.opcodeMap.wf = true ∧ c.progLo.toNat ≤ c.progHi.toNat ∧ c.defaultStart = c.progLo ∧
    c.stackBase.toNat + c.spTop.toNat ≤ 0xFFFF ∧ 1 ≤ c.spTop.toNat ∧ 1 ≤ c.stackCapacity.toNat ∧
    c.stackCapacity.toNat ≤ c.spTop.toNat := by
  simp only [Config.wf, Bool.and_eq_true, decide_eq_true_eq, beq_iff_eq, and_assoc]

/-- SP_MIN as a number, under a well-formed configuration (20_memory.md R64). -/
theorem Config.spMin_toNat {c : Config} (h : c.wf = true) : c.spMin.toNat = c.spTop.toNat - c.stackCapacity.toNat := by
  have hc := ((Config.wf_iff c).1 h).2.2.2.2.2.2
  rw [Config.spMin, BitVec.toNat_sub]
  have := c.spTop.isLt
  have := c.stackCapacity.isLt
  omega

/-- Decoding what OPCODE_MAP gives for an encoding's opcode: the opcode found for a form selects that form
(30_encoding.md R80, R92). -/
theorem OpcodeMap.lookup_opcodeOf {m : OpcodeMap} {f : Form} {op : Byte} (h : m.opcodeOf f = some op) :
    m.lookup op = some f := by
  unfold OpcodeMap.opcodeOf at h
  obtain ⟨e, he, rfl⟩ := Option.map_eq_some_iff.1 h
  have := List.find?_some he
  simp only [Bool.and_eq_true, beq_iff_eq] at this
  exact this.2

end Sys2Proof.Machine
end

