-- ==== Sys2Proof/Laws/PerInstr.lean ====
section
/-! SUPPORT. A statement about every instruction as syntax, one lemma per constructor: its operand bytes, decoded under its
own form, give it back (30_encoding.md R72, R94). -/

namespace Sys2Proof.Laws

/-- The high and low byte of a 16-bit operand put together again (20_memory.md R50). -/
@[simp] theorem wordOf_hiByte_loByte (w : Word) : wordOf (hiByte w) (loByte w) = w := by
  refine BitVec.eq_of_getLsbD_eq fun i hi => ?_
  rw [wordOf, hiByte, loByte, BitVec.getLsbD_append, BitVec.getLsbD_extractLsb', BitVec.getLsbD_extractLsb']
  by_cases h : i < 8
  · simp [h]
  · simp [h, show i - 8 < 8 by omega, show 8 + (i - 8) = i by omega]

@[simp] theorem hiByte_wordOf (h l : Byte) : hiByte (wordOf h l) = h := by
  refine BitVec.eq_of_getLsbD_eq fun i hi => ?_
  rw [hiByte, wordOf, BitVec.getLsbD_extractLsb', BitVec.getLsbD_append]
  simp [hi]

@[simp] theorem loByte_wordOf (h l : Byte) : loByte (wordOf h l) = l := by
  refine BitVec.eq_of_getLsbD_eq fun i hi => ?_
  rw [loByte, wordOf, BitVec.getLsbD_extractLsb', BitVec.getLsbD_append]
  simp [hi]

/-- The register a register's own index names is that register (10_state.md R21). -/
@[simp] theorem regOfIndex_regIndex (r : Reg) : regOfIndex (regIndex r) = some r := by
  cases r <;> decide

/-- An index that names a register is that register's index (10_state.md R21). -/
theorem regIndex_of_regOfIndex {b : Byte} {r : Reg} (h : regOfIndex b = some r) : regIndex r = b := by
  unfold regOfIndex at h
  split at h
  · cases h; subst_vars; rfl
  split at h
  · cases h; subst_vars; rfl
  split at h
  · cases h; subst_vars; rfl
  split at h
  · cases h; subst_vars; rfl
  split at h
  · cases h; subst_vars; rfl
  · cases h

/-- The family: an instruction's operand bytes, read under its form, give the instruction back. -/
def EncodeDecode.Statement (i : Instr) : Prop :=
  instrOf i.form (operandBytes i).1 (operandBytes i).2 = some i

theorem EncodeDecode.nop : EncodeDecode.Statement .nop := rfl
theorem EncodeDecode.mov (src dst : Reg) : EncodeDecode.Statement (.mov src dst) := by
  simp [EncodeDecode.Statement, Instr.form, operandBytes, instrOf]
theorem EncodeDecode.ldaAbs (addr : Word) : EncodeDecode.Statement (.ldaAbs addr) := by
  simp [EncodeDecode.Statement, Instr.form, operandBytes, instrOf]
theorem EncodeDecode.ldaIdx (zp : Byte) : EncodeDecode.Statement (.ldaIdx zp) := rfl
theorem EncodeDecode.ldaImm (v : Byte) : EncodeDecode.Statement (.ldaImm v) := rfl
theorem EncodeDecode.ldwAbs (addr : Word) : EncodeDecode.Statement (.ldwAbs addr) := by
  simp [EncodeDecode.Statement, Instr.form, operandBytes, instrOf]
theorem EncodeDecode.ldwIdx (zp : Byte) : EncodeDecode.Statement (.ldwIdx zp) := rfl
theorem EncodeDecode.ldwImm (v : Byte) : EncodeDecode.Statement (.ldwImm v) := rfl
theorem EncodeDecode.ldxAbs (addr : Word) : EncodeDecode.Statement (.ldxAbs addr) := by
  simp [EncodeDecode.Statement, Instr.form, operandBytes, instrOf]
theorem EncodeDecode.ldxIdx (zp : Byte) : EncodeDecode.Statement (.ldxIdx zp) := rfl
theorem EncodeDecode.ldxImm (v : Byte) : EncodeDecode.Statement (.ldxImm v) := rfl
theorem EncodeDecode.ldyAbs (addr : Word) : EncodeDecode.Statement (.ldyAbs addr) := by
  simp [EncodeDecode.Statement, Instr.form, operandBytes, instrOf]
theorem EncodeDecode.ldyIdx (zp : Byte) : EncodeDecode.Statement (.ldyIdx zp) := rfl
theorem EncodeDecode.ldyImm (v : Byte) : EncodeDecode.Statement (.ldyImm v) := rfl
theorem EncodeDecode.ldzAbs (addr : Word) : EncodeDecode.Statement (.ldzAbs addr) := by
  simp [EncodeDecode.Statement, Instr.form, operandBytes, instrOf]
theorem EncodeDecode.ldzIdx (zp : Byte) : EncodeDecode.Statement (.ldzIdx zp) := rfl
theorem EncodeDecode.ldzImm (v : Byte) : EncodeDecode.Statement (.ldzImm v) := rfl
theorem EncodeDecode.staAbs (addr : Word) : EncodeDecode.Statement (.staAbs addr) := by
  simp [EncodeDecode.Statement, Instr.form, operandBytes, instrOf]
theorem EncodeDecode.staIdx (zp : Byte) : EncodeDecode.Statement (.staIdx zp) := rfl
theorem EncodeDecode.stwAbs (addr : Word) : EncodeDecode.Statement (.stwAbs addr) := by
  simp [EncodeDecode.Statement, Instr.form, operandBytes, instrOf]
theorem EncodeDecode.stwIdx (zp : Byte) : EncodeDecode.Statement (.stwIdx zp) := rfl
theorem EncodeDecode.stxAbs (addr : Word) : EncodeDecode.Statement (.stxAbs addr) := by
  simp [EncodeDecode.Statement, Instr.form, operandBytes, instrOf]
theorem EncodeDecode.stxIdx (zp : Byte) : EncodeDecode.Statement (.stxIdx zp) := rfl
theorem EncodeDecode.styAbs (addr : Word) : EncodeDecode.Statement (.styAbs addr) := by
  simp [EncodeDecode.Statement, Instr.form, operandBytes, instrOf]
theorem EncodeDecode.styIdx (zp : Byte) : EncodeDecode.Statement (.styIdx zp) := rfl
theorem EncodeDecode.stzAbs (addr : Word) : EncodeDecode.Statement (.stzAbs addr) := by
  simp [EncodeDecode.Statement, Instr.form, operandBytes, instrOf]
theorem EncodeDecode.stzIdx (zp : Byte) : EncodeDecode.Statement (.stzIdx zp) := rfl
theorem EncodeDecode.jmpAbs (addr : Word) : EncodeDecode.Statement (.jmpAbs addr) := by
  simp [EncodeDecode.Statement, Instr.form, operandBytes, instrOf]
theorem EncodeDecode.jmpInd (ptr : Word) : EncodeDecode.Statement (.jmpInd ptr) := by
  simp [EncodeDecode.Statement, Instr.form, operandBytes, instrOf]
theorem EncodeDecode.jfn (addr : Word) : EncodeDecode.Statement (.jfn addr) := by
  simp [EncodeDecode.Statement, Instr.form, operandBytes, instrOf]
theorem EncodeDecode.ret : EncodeDecode.Statement .ret := rfl
theorem EncodeDecode.bcc (disp : Byte) : EncodeDecode.Statement (.bcc disp) := rfl
theorem EncodeDecode.bcs (disp : Byte) : EncodeDecode.Statement (.bcs disp) := rfl
theorem EncodeDecode.bne (disp : Byte) : EncodeDecode.Statement (.bne disp) := rfl
theorem EncodeDecode.beq (disp : Byte) : EncodeDecode.Statement (.beq disp) := rfl
theorem EncodeDecode.brp (disp : Byte) : EncodeDecode.Statement (.brp disp) := rfl
theorem EncodeDecode.brn (disp : Byte) : EncodeDecode.Statement (.brn disp) := rfl
theorem EncodeDecode.clc : EncodeDecode.Statement .clc := rfl
theorem EncodeDecode.sec : EncodeDecode.Statement .sec := rfl
theorem EncodeDecode.clo : EncodeDecode.Statement .clo := rfl
theorem EncodeDecode.phs : EncodeDecode.Statement .phs := rfl
theorem EncodeDecode.pos : EncodeDecode.Statement .pos := rfl
theorem EncodeDecode.pha : EncodeDecode.Statement .pha := rfl
theorem EncodeDecode.poa : EncodeDecode.Statement .poa := rfl
theorem EncodeDecode.cmpAbs (addr : Word) : EncodeDecode.Statement (.cmpAbs addr) := by
  simp [EncodeDecode.Statement, Instr.form, operandBytes, instrOf]
theorem EncodeDecode.cmpIdx (zp : Byte) : EncodeDecode.Statement (.cmpIdx zp) := rfl
theorem EncodeDecode.cmpImm (v : Byte) : EncodeDecode.Statement (.cmpImm v) := rfl
theorem EncodeDecode.cpwAbs (addr : Word) : EncodeDecode.Statement (.cpwAbs addr) := by
  simp [EncodeDecode.Statement, Instr.form, operandBytes, instrOf]
theorem EncodeDecode.cpwIdx (zp : Byte) : EncodeDecode.Statement (.cpwIdx zp) := rfl
theorem EncodeDecode.cpwImm (v : Byte) : EncodeDecode.Statement (.cpwImm v) := rfl
theorem EncodeDecode.cpxAbs (addr : Word) : EncodeDecode.Statement (.cpxAbs addr) := by
  simp [EncodeDecode.Statement, Instr.form, operandBytes, instrOf]
theorem EncodeDecode.cpxIdx (zp : Byte) : EncodeDecode.Statement (.cpxIdx zp) := rfl
theorem EncodeDecode.cpxImm (v : Byte) : EncodeDecode.Statement (.cpxImm v) := rfl
theorem EncodeDecode.andAbs (addr : Word) : EncodeDecode.Statement (.andAbs addr) := by
  simp [EncodeDecode.Statement, Instr.form, operandBytes, instrOf]
theorem EncodeDecode.andIdx (zp : Byte) : EncodeDecode.Statement (.andIdx zp) := rfl
theorem EncodeDecode.andImm (v : Byte) : EncodeDecode.Statement (.andImm v) := rfl
theorem EncodeDecode.oraAbs (addr : Word) : EncodeDecode.Statement (.oraAbs addr) := by
  simp [EncodeDecode.Statement, Instr.form, operandBytes, instrOf]
theorem EncodeDecode.oraIdx (zp : Byte) : EncodeDecode.Statement (.oraIdx zp) := rfl
theorem EncodeDecode.oraImm (v : Byte) : EncodeDecode.Statement (.oraImm v) := rfl
theorem EncodeDecode.xorAbs (addr : Word) : EncodeDecode.Statement (.xorAbs addr) := by
  simp [EncodeDecode.Statement, Instr.form, operandBytes, instrOf]
theorem EncodeDecode.xorIdx (zp : Byte) : EncodeDecode.Statement (.xorIdx zp) := rfl
theorem EncodeDecode.xorImm (v : Byte) : EncodeDecode.Statement (.xorImm v) := rfl
theorem EncodeDecode.rolAbs (addr : Word) : EncodeDecode.Statement (.rolAbs addr) := by
  simp [EncodeDecode.Statement, Instr.form, operandBytes, instrOf]
theorem EncodeDecode.rolAcc : EncodeDecode.Statement .rolAcc := rfl
theorem EncodeDecode.rorAbs (addr : Word) : EncodeDecode.Statement (.rorAbs addr) := by
  simp [EncodeDecode.Statement, Instr.form, operandBytes, instrOf]
theorem EncodeDecode.rorAcc : EncodeDecode.Statement .rorAcc := rfl
theorem EncodeDecode.bsr : EncodeDecode.Statement .bsr := rfl
theorem EncodeDecode.bsl : EncodeDecode.Statement .bsl := rfl
theorem EncodeDecode.addAbs (addr : Word) : EncodeDecode.Statement (.addAbs addr) := by
  simp [EncodeDecode.Statement, Instr.form, operandBytes, instrOf]
theorem EncodeDecode.addIdx (zp : Byte) : EncodeDecode.Statement (.addIdx zp) := rfl
theorem EncodeDecode.addImm (v : Byte) : EncodeDecode.Statement (.addImm v) := rfl
theorem EncodeDecode.subAbs (addr : Word) : EncodeDecode.Statement (.subAbs addr) := by
  simp [EncodeDecode.Statement, Instr.form, operandBytes, instrOf]
theorem EncodeDecode.subIdx (zp : Byte) : EncodeDecode.Statement (.subIdx zp) := rfl
theorem EncodeDecode.subImm (v : Byte) : EncodeDecode.Statement (.subImm v) := rfl
theorem EncodeDecode.incAbs (addr : Word) : EncodeDecode.Statement (.incAbs addr) := by
  simp [EncodeDecode.Statement, Instr.form, operandBytes, instrOf]
theorem EncodeDecode.incIdx (zp : Byte) : EncodeDecode.Statement (.incIdx zp) := rfl
theorem EncodeDecode.decAbs (addr : Word) : EncodeDecode.Statement (.decAbs addr) := by
  simp [EncodeDecode.Statement, Instr.form, operandBytes, instrOf]
theorem EncodeDecode.decIdx (zp : Byte) : EncodeDecode.Statement (.decIdx zp) := rfl
theorem EncodeDecode.inw : EncodeDecode.Statement .inw := rfl
theorem EncodeDecode.dew : EncodeDecode.Statement .dew := rfl
theorem EncodeDecode.inx : EncodeDecode.Statement .inx := rfl
theorem EncodeDecode.dex : EncodeDecode.Statement .dex := rfl

end Sys2Proof.Laws
end

