-- ==== Sys2Proof/Machine/Assembler.lean ====
section
/-! DEFINITION. Program images and the assembler's syntax (30_encoding.md R77, R89 to R98). The assembler is software outside the
core (00_scope.md R4); the spec keeps its syntax and its bytes, and this file is those rules as functions on characters
(log 16). Nothing in the machine uses it. -/

namespace Sys2Proof.Machine

/-- The causes of a CompileError (30_encoding.md R98). -/
inductive CompileError
  /-- An unknown mnemonic. -/
  | unknownMnemonic
  /-- A bad operand count or shape. -/
  | badOperands
  /-- The mnemonic has no encoding for the inferred mode (R92). -/
  | noEncoding
  /-- An operand out of range (R93). -/
  | outOfRange
  /-- More than 21845 instructions (R95). -/
  | tooLong
deriving DecidableEq, Repr

/-- Whitespace and commas separate operands (30_encoding.md R89); that tab and carriage return are the other whitespace is the
model's choice (DESIGN CHOICE, log 16). -/
def isSeparator (c : Char) : Bool := c == ' ' || c == '\t' || c == '\r' || c == ','

/-- A line with its comment taken off: everything from `;` on (30_encoding.md R90). That quotes do not protect a `;` is the
model's choice (DESIGN CHOICE, log 16). -/
def stripComment (line : List Char) : List Char := line.takeWhile (· != ';')

/-- The tokens of a line (30_encoding.md R89): `cur` holds the characters of the token being read, in order. A separator ends
the token wherever it stands, so neither quotes nor parentheses protect a space or a comma, and separators in a row
count as one: R89 and R93 leave both open (DESIGN CHOICE, log 16). -/
def tokensFrom (cur : List Char) : List Char → List (List Char)
  | [] => if cur.isEmpty then [] else [cur]
  | c :: cs =>
    if isSeparator c then (if cur.isEmpty then tokensFrom [] cs else cur :: tokensFrom [] cs)
    else tokensFrom (cur ++ [c]) cs

/-- The lines of a source text (30_encoding.md R89). -/
def linesFrom (cur : List Char) : List Char → List (List Char)
  | [] => [cur]
  | c :: cs => if c == '\n' then cur :: linesFrom [] cs else linesFrom (cur ++ [c]) cs

/-- A token in capitals: mnemonics and register names are case-insensitive (30_encoding.md R89). -/
def upper (t : List Char) : List Char := t.map Char.toUpper

/-- The register a token names (30_encoding.md R89, R91). -/
def regOfToken (t : List Char) : Option Reg :=
  match upper t with
  | ['A'] => some .a
  | ['W'] => some .w
  | ['X'] => some .x
  | ['Y'] => some .y
  | ['Z'] => some .z
  | _ => none

/-- The value of a digit in a base. -/
def digitValue (base : Nat) (c : Char) : Option Nat :=
  let n := c.toNat
  let v :=
    if 48 ≤ n ∧ n ≤ 57 then n - 48
    else if 65 ≤ n ∧ n ≤ 70 then n - 55
    else if 97 ≤ n ∧ n ≤ 102 then n - 87
    else base
  if v < base then some v else none

/-- The digits of a number in a base, most significant first; `acc` is the value read so far. -/
def digitsFrom (base acc : Nat) : List Char → Option Nat
  | [] => some acc
  | c :: cs =>
    match digitValue base c with
    | some v => digitsFrom base (acc * base + v) cs
    | none => none

/-- A number in a base: at least one digit. -/
def number (base : Nat) (t : List Char) : Option Nat :=
  if t.isEmpty then none else digitsFrom base 0 t

/-- One surrounding pair of quotes removed (30_encoding.md R93). -/
def unquote (t : List Char) : List Char :=
  match t with
  | q :: rest =>
    if (q == '\'' || q == '"') && 2 ≤ t.length && t.getLast? == some q then rest.dropLast else t
  | [] => t

/-- A token that is a number: decimal with an optional `-`, hexadecimal after `0x` or `$`, binary after `0b` or `%`
(30_encoding.md R93). -/
def numericLiteral (t : List Char) : Option Int :=
  match t with
  | '-' :: ds => (number 10 ds).map fun n => -(n : Int)
  | '0' :: 'x' :: ds => (number 16 ds).map Int.ofNat
  | '$' :: ds => (number 16 ds).map Int.ofNat
  | '0' :: 'b' :: ds => (number 2 ds).map Int.ofNat
  | '%' :: ds => (number 2 ds).map Int.ofNat
  | ds => (number 10 ds).map Int.ofNat

/-- An operand literal: a number, or else the ASCII code of the first character, quotes removed (30_encoding.md R93;
log 16). -/
def literal (t : List Char) : Except CompileError Int :=
  match numericLiteral t with
  | some n => .ok n
  | none =>
    match unquote t with
    | c :: _ => if c.toNat < 128 then .ok (Int.ofNat c.toNat) else .error .outOfRange
    | [] => .error .badOperands

/-- The bytes of an 8-bit operand, `[v, 0]`: -128..255, mod 256 (30_encoding.md R93, R94). -/
def operand8 (t : List Char) : Except CompileError (Byte × Byte) :=
  match literal t with
  | .ok n => if -128 ≤ n ∧ n ≤ 255 then .ok (BitVec.ofInt 8 n, 0) else .error .outOfRange
  | .error e => .error e

/-- The bytes of a 16-bit operand, `[hi, lo]`: 0..65535 (30_encoding.md R93, R94). -/
def operand16 (t : List Char) : Except CompileError (Byte × Byte) :=
  match literal t with
  | .ok n =>
    if 0 ≤ n ∧ n ≤ 65535 then .ok (hiByte (BitVec.ofInt 16 n), loByte (BitVec.ofInt 16 n)) else .error .outOfRange
  | .error e => .error e

/-- The forms of 30_encoding.md R81: every form has its row in R84's table (`mem_forms` in Laws/Assembler.lean). -/
def forms : List Form := defaultOpcodeMap.map (·.2)

/-- The form of a mnemonic in a mode, whatever the map in force assigns (30_encoding.md R81). -/
def formOf (mnemonic : List Char) (mode : Mode) : Option Form :=
  forms.find? fun f => f.mnemonic.toList == mnemonic && f.mode == mode

/-- The opcode of (mnemonic, mode) in the table, where an opcode of it selects that form (30_encoding.md R80, R92). -/
def opcodeFor (m : OpcodeMap) (mnemonic : List Char) (mode : Mode) : Except CompileError Byte :=
  match (formOf mnemonic mode).bind m.opcodeOf with
  | some op => .ok op
  | none => .error .noEncoding

/-- The mnemonic has an encoding for the mode (30_encoding.md R91, R92). -/
def hasEncoding (m : OpcodeMap) (mnemonic : List Char) (mode : Mode) : Bool := (opcodeFor m mnemonic mode).isOk

/-- The parenthesised token `(n)`, less its parentheses (30_encoding.md R91). A token with only one of the two, such as `(5` or
`5)`, is not one: it is a bare operand, read as R93 says (DESIGN CHOICE, log 16). -/
def parenthesised (t : List Char) : Option (List Char) :=
  match t with
  | '(' :: rest => if rest.getLast? == some ')' then some rest.dropLast else none
  | _ => none

/-- The mode inferred from the operands' shape, with the operand bytes (30_encoding.md R91, R93, R94). A shape that R91 does
not list is badOperands (R98). The operand of `n,r` is read before r is looked at, so an operand out of range is reported
before the missing encoding of an index register other than W (DESIGN CHOICE, log 16). -/
def operandsOf (m : OpcodeMap) (mnemonic : List Char) : List (List Char) → Except CompileError (Mode × Byte × Byte)
  | [] => .ok (if hasEncoding m mnemonic .imp then .imp else .acc, 0, 0)
  | [t] =>
    match parenthesised t, t with
    | some n, _ => (operand16 n).map fun b => (.ind, b)
    | none, '#' :: n => (operand8 n).map fun b => (.imm, b)
    | none, n =>
      if (formOf mnemonic .rel).isSome then (operand8 n).map fun b => (.rel, b) else (operand16 n).map fun b => (.abs, b)
  | [t, u] =>
    match regOfToken t, regOfToken u with
    | some r, some q => .ok (.reg, regIndex r, regIndex q)
    | none, some r =>
      match operand16 t with
      | .ok b => if r = .w then .ok (.idx, b) else .error .noEncoding
      | .error e => .error e
    | _, none => .error .badOperands
  | _ => .error .badOperands

/-- The three bytes of a line that holds an instruction (30_encoding.md R91 to R94). A mnemonic is unknown where R81 has no form
of it (R98). Which cause is reported where a line has several is the model's choice (DESIGN CHOICE, log 16): the
mnemonic, then the operands, then the encoding. -/
def assembleInstr (m : OpcodeMap) (mnemonic : List Char) (args : List (List Char)) : Except CompileError (List Byte) :=
  if forms.any fun f => f.mnemonic.toList == mnemonic then
    match operandsOf m mnemonic args with
    | .ok (mode, b1, b2) => (opcodeFor m mnemonic mode).map fun op => [op, b1, b2]
    | .error e => .error e
  else .error .unknownMnemonic

/-- The bytes of a line: none for an empty, blank or comment-only line (30_encoding.md R89, R90). -/
def assembleLine (m : OpcodeMap) (line : List Char) : Except CompileError (List Byte) :=
  match tokensFrom [] (stripComment line) with
  | [] => .ok []
  | t :: args => assembleInstr m (upper t) args

/-- The instruction bytes of a program's lines; the first line with an error ends the assembly (30_encoding.md R98). -/
def assembleLines (m : OpcodeMap) : List (List Char) → Except CompileError (List Byte)
  | [] => .ok []
  | l :: ls =>
    match assembleLine m l, assembleLines m ls with
    | .ok b, .ok bs => .ok (b ++ bs)
    | .error e, _ => .error e
    | .ok _, .error e => .error e

/-- A program image: the header 7F and the 16-bit big-endian count of instruction bytes, then the bytes
(30_encoding.md R77, R78, R95). -/
def programImage (bytes : List Byte) : Except CompileError (List Byte) :=
  let n := BitVec.ofNat 16 bytes.length
  if bytes.length ≤ 65535 then .ok ([headerMarker, hiByte n, loByte n] ++ bytes) else .error .tooLong

/-- The image of a program given as instructions (30_encoding.md R77); `none` where one has no encoding under the map. -/
def imageOf (m : OpcodeMap) (is : List Instr) : Option (Except CompileError (List Byte)) :=
  (is.mapM (encode m)).map fun bs => programImage bs.flatten

/-- Assemble a source text (30_encoding.md R89 to R98). -/
def assemble (m : OpcodeMap) (source : List Char) : Except CompileError (List Byte) :=
  match assembleLines m (linesFrom [] source) with
  | .ok bs => programImage bs
  | .error e => .error e

end Sys2Proof.Machine
end

