-- ==== Sys2Proof/Safety.lean ====
section
/-! DEFINITION. The terms the statements use: the invariant of the machine, what an instruction leaves unchanged, which
instruction writes what (10_state.md R22, R29, R31; 20_memory.md R49), and the operand forms written out from 30_encoding.md R72
beside the model's own. -/

namespace Sys2Proof.Machine

/-- SP lies in [SP_MIN, SP_TOP] (20_memory.md R64). -/
abbrev State.SpInRange (s : State) : Prop :=
  s.config.spMin.toNat ≤ s.sp.toNat ∧ s.sp.toNat ≤ s.config.spTop.toNat

/-- What the stack instructions rely on: a configuration within R6's constraints, memory in canonical form and SP in range. -/
abbrev State.StackOk (s : State) : Prop := s.config.wf = true ∧ s.mem.wf = true ∧ s.SpInRange

/-- FAULT fits the status: empty unless Faulted, and then its kind and code are its info's and its pc is the pc
(10_state.md R37, 60_exceptions.md R240, R242, R243). -/
abbrev State.FaultFits (s : State) : Prop :=
  match s.fault with
  | none => s.status ≠ .faulted
  | some f => s.status = .faulted ∧ f.kind = f.info.kind ∧ f.code = f.kind.code ∧ f.pc = s.pc

/-- The invariant of the machine. -/
structure State.Inv (s : State) : Prop where
  /-- The configuration is within R6's constraints. -/
  configWf : s.config.wf = true
  /-- Memory is in canonical form and holds no address outside the space (20_memory.md R45). -/
  memWf : s.mem.wf = true
  /-- Bit 5 of the flags is stored as 1 (10_state.md R28). -/
  bit5 : s.flags.getLsbD 5 = true
  /-- SP is in its legal range (10_state.md R31). -/
  spInRange : s.SpInRange
  /-- END is at most 0x20001 (10_state.md R36). -/
  endBound : s.endAddr ≤ 0x20001
  /-- In a run, END lies past the header (10_state.md R36). -/
  endPastHeader : s.status = .running ∨ s.status = .halted → s.startAddr.toNat + 3 ≤ s.endAddr
  /-- FAULT fits the status. -/
  faultFits : s.FaultFits

/-- A run is safe so far: no fault has ended it (60_exceptions.md R243). -/
def State.safe (s : State) : Bool := decide (s.status ≠ .faulted)

/-- Every general register outside `rs` is unchanged. -/
def RegsKept (rs : List Reg) (s t : State) : Prop := ∀ r : Reg, r ∉ rs → t.reg r = s.reg r

/-- Every bit of the flags, as they read, outside `bs` is unchanged. -/
def FlagsKept (bs : List Nat) (s t : State) : Prop :=
  ∀ i : Nat, i < 8 → i ∉ bs → t.readFlags.getLsbD i = s.readFlags.getLsbD i

/-- Every byte of memory at an address outside `as` reads as before. -/
def CellsKept (as : List Nat) (s t : State) : Prop := ∀ a : Nat, a ∉ as → t.byteAt a = s.byteAt a

/-- The controller's own state, the configuration and the host's inputs are unchanged: status, START, END, FAULT. -/
def ControlKept (s t : State) : Prop :=
  t.status = s.status ∧ t.startAddr = s.startAddr ∧ t.endAddr = s.endAddr ∧ t.fault = s.fault ∧
    t.config = s.config ∧ t.host = s.host

/-- The frame of an instruction that may move SP: registers outside `rs`, flag bits outside `bs` and cells outside `as` are
unchanged, and so is the controller's state. -/
def StackFrame (rs : List Reg) (bs as : List Nat) (s t : State) : Prop :=
  RegsKept rs s t ∧ FlagsKept bs s t ∧ CellsKept as s t ∧ ControlKept s t

/-- The frame of an instruction that does not move SP. -/
def Frame (rs : List Reg) (bs as : List Nat) (s t : State) : Prop := StackFrame rs bs as s t ∧ t.sp = s.sp

/-- The machine s as a fault leaves it: only status and FAULT differ (60_exceptions.md R243). -/
def State.asFaulted (s : State) (kind : Fault) (code : Nat) (info : FaultInfo) : State :=
  { s with status := .faulted, fault := some { kind := kind, code := code, pc := s.pc, info := info } }

/-- The next step of s is an instruction fetched at pc: no host action is due, the core runs, the loop test holds and SUSPEND
does not (41_cycle.md R126, R127). -/
def State.AtInstruction (s : State) : Prop :=
  s.host.events = [] ∧ s.status = .running ∧ s.pc.toNat < s.endAddr ∧ s.pc ∉ s.host.suspend

/-- An operand in one of the three modes of LDA, CMP, AND, ADD and the like (30_encoding.md R72). -/
inductive Operand
  | abs (addr : Word)
  | idx (zp : Byte)
  | imm (v : Byte)
deriving DecidableEq, Repr

/-- The operand's value: the cell at {a1, a2}, the cell at (a2 + W) mod 256, or the byte a1 (30_encoding.md R72). -/
def Operand.value (s : State) : Operand → Byte
  | .abs addr => s.byteAt addr.toNat
  | .idx zp => s.byteAt ((zp.toNat + s.w.toNat) % 256)
  | .imm v => v

/-- A memory cell in one of the two modes of STA, INC and the like (30_encoding.md R72). -/
inductive CellOperand
  | abs (addr : Word)
  | idx (zp : Byte)
deriving DecidableEq, Repr

/-- The cell's address: {a1, a2}, or (a2 + W) mod 256 (30_encoding.md R72). -/
def CellOperand.addr (s : State) : CellOperand → Nat
  | .abs addr => addr.toNat
  | .idx zp => (zp.toNat + s.w.toNat) % 256

/-- LDA, LDW, LDX, LDY and LDZ in each mode: the load of a register. -/
def loadInstr : Reg → Operand → Instr
  | .a, .abs addr => .ldaAbs addr
  | .a, .idx zp => .ldaIdx zp
  | .a, .imm v => .ldaImm v
  | .w, .abs addr => .ldwAbs addr
  | .w, .idx zp => .ldwIdx zp
  | .w, .imm v => .ldwImm v
  | .x, .abs addr => .ldxAbs addr
  | .x, .idx zp => .ldxIdx zp
  | .x, .imm v => .ldxImm v
  | .y, .abs addr => .ldyAbs addr
  | .y, .idx zp => .ldyIdx zp
  | .y, .imm v => .ldyImm v
  | .z, .abs addr => .ldzAbs addr
  | .z, .idx zp => .ldzIdx zp
  | .z, .imm v => .ldzImm v

/-- STA, STW, STX, STY and STZ in each mode: the store of a register. -/
def storeInstr : Reg → CellOperand → Instr
  | .a, .abs addr => .staAbs addr
  | .a, .idx zp => .staIdx zp
  | .w, .abs addr => .stwAbs addr
  | .w, .idx zp => .stwIdx zp
  | .x, .abs addr => .stxAbs addr
  | .x, .idx zp => .stxIdx zp
  | .y, .abs addr => .styAbs addr
  | .y, .idx zp => .styIdx zp
  | .z, .abs addr => .stzAbs addr
  | .z, .idx zp => .stzIdx zp

/-- CMP in each mode. -/
def cmpInstr : Operand → Instr
  | .abs addr => .cmpAbs addr
  | .idx zp => .cmpIdx zp
  | .imm v => .cmpImm v

/-- CPW in each mode. -/
def cpwInstr : Operand → Instr
  | .abs addr => .cpwAbs addr
  | .idx zp => .cpwIdx zp
  | .imm v => .cpwImm v

/-- CPX in each mode. -/
def cpxInstr : Operand → Instr
  | .abs addr => .cpxAbs addr
  | .idx zp => .cpxIdx zp
  | .imm v => .cpxImm v

/-- AND in each mode. -/
def andInstr : Operand → Instr
  | .abs addr => .andAbs addr
  | .idx zp => .andIdx zp
  | .imm v => .andImm v

/-- ORA in each mode. -/
def oraInstr : Operand → Instr
  | .abs addr => .oraAbs addr
  | .idx zp => .oraIdx zp
  | .imm v => .oraImm v

/-- XOR in each mode. -/
def xorInstr : Operand → Instr
  | .abs addr => .xorAbs addr
  | .idx zp => .xorIdx zp
  | .imm v => .xorImm v

/-- ADD in each mode. -/
def addInstr : Operand → Instr
  | .abs addr => .addAbs addr
  | .idx zp => .addIdx zp
  | .imm v => .addImm v

/-- SUB in each mode. -/
def subInstr : Operand → Instr
  | .abs addr => .subAbs addr
  | .idx zp => .subIdx zp
  | .imm v => .subImm v

/-- INC in each mode. -/
def incInstr : CellOperand → Instr
  | .abs addr => .incAbs addr
  | .idx zp => .incIdx zp

/-- DEC in each mode. -/
def decInstr : CellOperand → Instr
  | .abs addr => .decAbs addr
  | .idx zp => .decIdx zp

/-- The opcode byte of 30_encoding.md R84 for the load of a register in a mode. -/
def loadOpcode : Reg → Operand → Byte
  | .a, .abs _ => 0x02
  | .a, .idx _ => 0x03
  | .a, .imm _ => 0x04
  | .w, .abs _ => 0x05
  | .w, .idx _ => 0x06
  | .w, .imm _ => 0x07
  | .x, .abs _ => 0x08
  | .x, .idx _ => 0x09
  | .x, .imm _ => 0x0A
  | .y, .abs _ => 0x0B
  | .y, .idx _ => 0x0C
  | .y, .imm _ => 0x0D
  | .z, .abs _ => 0x0E
  | .z, .idx _ => 0x0F
  | .z, .imm _ => 0x10

/-- The opcode byte of 30_encoding.md R84 for the store of a register in a mode. -/
def storeOpcode : Reg → CellOperand → Byte
  | .a, .abs _ => 0x11
  | .a, .idx _ => 0x12
  | .w, .abs _ => 0x13
  | .w, .idx _ => 0x14
  | .x, .abs _ => 0x15
  | .x, .idx _ => 0x16
  | .y, .abs _ => 0x17
  | .y, .idx _ => 0x18
  | .z, .abs _ => 0x19
  | .z, .idx _ => 0x1A

/-- The operand bytes a1 and a2 written out (30_encoding.md R71, R72): the byte a mode ignores is `pad`. -/
def Operand.bytes (pad : Byte) : Operand → Byte × Byte
  | .abs addr => (BitVec.ofNat 8 (addr.toNat / 256), BitVec.ofNat 8 addr.toNat)
  | .idx zp => (pad, zp)
  | .imm v => (v, pad)

/-- The operand bytes of a memory cell written out. -/
def CellOperand.bytes (pad : Byte) : CellOperand → Byte × Byte
  | .abs addr => (BitVec.ofNat 8 (addr.toNat / 256), BitVec.ofNat 8 addr.toNat)
  | .idx zp => (pad, zp)

/-- The default map's opcode for each mode of an instruction with three modes: abs, idx and imm in a row (30_encoding.md
R84). -/
def Operand.opcodeFrom (first : Byte) : Operand → Byte
  | .abs _ => first
  | .idx _ => first + 1
  | .imm _ => first + 2

/-- Whether a mode reads a1 (30_encoding.md R72). -/
def usesA1 : Mode → Bool
  | .imm | .abs | .rel | .ind | .reg => true
  | .imp | .acc | .idx => false

/-- Whether a mode reads a2 (30_encoding.md R72). -/
def usesA2 : Mode → Bool
  | .abs | .idx | .ind | .reg => true
  | .imp | .acc | .imm | .rel => false

/-- The general registers an instruction may write (10_state.md R22). -/
def writtenRegs : Instr → List Reg
  | .mov _ dst => [dst]
  | .nop | .staAbs _ | .staIdx _ | .stwAbs _ | .stwIdx _ | .stxAbs _ | .stxIdx _ | .styAbs _
  | .styIdx _ | .stzAbs _ | .stzIdx _ | .jmpAbs _ | .jmpInd _ | .jfn _ | .ret | .bcc _ | .bcs _ | .bne _
  | .beq _ | .brp _ | .brn _ | .clc | .sec | .clo | .phs | .pos | .pha | .cmpAbs _ | .cmpIdx _ | .cmpImm _
  | .cpwAbs _ | .cpwIdx _ | .cpwImm _ | .cpxAbs _ | .cpxIdx _ | .cpxImm _ | .rolAbs _ | .rorAbs _ | .incAbs _
  | .incIdx _ | .decAbs _ | .decIdx _ => []
  | .ldaAbs _ | .ldaIdx _ | .ldaImm _ | .poa | .andAbs _ | .andIdx _ | .andImm _ | .oraAbs _ | .oraIdx _
  | .oraImm _ | .xorAbs _ | .xorIdx _ | .xorImm _ | .rolAcc | .rorAcc | .bsr | .bsl | .addAbs _ | .addIdx _
  | .addImm _ | .subAbs _ | .subIdx _ | .subImm _ => [.a]
  | .ldwAbs _ | .ldwIdx _ | .ldwImm _ | .inw | .dew => [.w]
  | .ldxAbs _ | .ldxIdx _ | .ldxImm _ | .inx | .dex => [.x]
  | .ldyAbs _ | .ldyIdx _ | .ldyImm _ => [.y]
  | .ldzAbs _ | .ldzIdx _ | .ldzImm _ => [.z]

/-- The flag bits an instruction may write (10_state.md R29): 7 is N, 6 V, 1 Z, 0 C; POS also writes 4, 3 and 2. -/
def writtenFlags : Instr → List Nat
  | .nop | .staAbs _ | .staIdx _ | .stwAbs _ | .stwIdx _ | .stxAbs _ | .stxIdx _ | .styAbs _ | .styIdx _
  | .stzAbs _ | .stzIdx _ | .jmpAbs _ | .jmpInd _ | .jfn _ | .ret | .bcc _ | .bcs _ | .bne _ | .beq _ | .brp _
  | .brn _ | .phs | .pha => []
  | .mov _ _ | .ldaAbs _ | .ldaIdx _ | .ldaImm _ | .ldwAbs _ | .ldwIdx _ | .ldwImm _ | .ldxAbs _ | .ldxIdx _
  | .ldxImm _ | .ldyAbs _ | .ldyIdx _ | .ldyImm _ | .ldzAbs _ | .ldzIdx _ | .ldzImm _ | .poa | .andAbs _
  | .andIdx _ | .andImm _ | .oraAbs _ | .oraIdx _ | .oraImm _ | .xorAbs _ | .xorIdx _ | .xorImm _ | .incAbs _
  | .incIdx _ | .decAbs _ | .decIdx _ | .inw | .dew | .inx | .dex => [7, 1]
  | .clc | .sec => [0]
  | .clo => [6]
  | .pos => [7, 6, 4, 3, 2, 1, 0]
  | .cmpAbs _ | .cmpIdx _ | .cmpImm _ | .cpwAbs _ | .cpwIdx _ | .cpwImm _ | .cpxAbs _ | .cpxIdx _ | .cpxImm _
  | .rolAcc | .rorAcc => [7, 1, 0]
  | .rolAbs _ | .rorAbs _ | .bsr | .bsl => [7, 0]
  | .addAbs _ | .addIdx _ | .addImm _ | .subAbs _ | .subIdx _ | .subImm _ => [7, 6, 1, 0]

/-- The instructions that write memory (20_memory.md R49): stores, INC, DEC, the Absolute forms of ROL and ROR, and those
that use the stack. -/
def writesMemory : Instr → Bool
  | .nop | .mov _ _ | .ldaAbs _ | .ldaIdx _ | .ldaImm _ | .ldwAbs _ | .ldwIdx _ | .ldwImm _ | .ldxAbs _
  | .ldxIdx _ | .ldxImm _ | .ldyAbs _ | .ldyIdx _ | .ldyImm _ | .ldzAbs _ | .ldzIdx _ | .ldzImm _ | .jmpAbs _
  | .jmpInd _ | .bcc _ | .bcs _ | .bne _ | .beq _ | .brp _ | .brn _ | .clc | .sec | .clo | .cmpAbs _
  | .cmpIdx _ | .cmpImm _ | .cpwAbs _ | .cpwIdx _ | .cpwImm _ | .cpxAbs _ | .cpxIdx _ | .cpxImm _ | .andAbs _
  | .andIdx _ | .andImm _ | .oraAbs _ | .oraIdx _ | .oraImm _ | .xorAbs _ | .xorIdx _ | .xorImm _ | .rolAcc
  | .rorAcc | .bsr | .bsl | .addAbs _ | .addIdx _ | .addImm _ | .subAbs _ | .subIdx _ | .subImm _ | .inw | .dew
  | .inx | .dex => false
  | .staAbs _ | .staIdx _ | .stwAbs _ | .stwIdx _ | .stxAbs _ | .stxIdx _ | .styAbs _ | .styIdx _ | .stzAbs _
  | .stzIdx _ | .jfn _ | .ret | .phs | .pos | .pha | .poa | .rolAbs _ | .rorAbs _ | .incAbs _ | .incIdx _
  | .decAbs _ | .decIdx _ => true

/-- The instructions that use the stack engine (20_memory.md R49, 60_exceptions.md R241). -/
def usesStack : Instr → Bool
  | .nop | .mov _ _ | .ldaAbs _ | .ldaIdx _ | .ldaImm _ | .ldwAbs _ | .ldwIdx _ | .ldwImm _ | .ldxAbs _
  | .ldxIdx _ | .ldxImm _ | .ldyAbs _ | .ldyIdx _ | .ldyImm _ | .ldzAbs _ | .ldzIdx _ | .ldzImm _ | .staAbs _
  | .staIdx _ | .stwAbs _ | .stwIdx _ | .stxAbs _ | .stxIdx _ | .styAbs _ | .styIdx _ | .stzAbs _ | .stzIdx _
  | .jmpAbs _ | .jmpInd _ | .bcc _ | .bcs _ | .bne _ | .beq _ | .brp _ | .brn _ | .clc | .sec | .clo
  | .cmpAbs _ | .cmpIdx _ | .cmpImm _ | .cpwAbs _ | .cpwIdx _ | .cpwImm _ | .cpxAbs _ | .cpxIdx _ | .cpxImm _
  | .andAbs _ | .andIdx _ | .andImm _ | .oraAbs _ | .oraIdx _ | .oraImm _ | .xorAbs _ | .xorIdx _ | .xorImm _
  | .rolAbs _ | .rolAcc | .rorAbs _ | .rorAcc | .bsr | .bsl | .addAbs _ | .addIdx _ | .addImm _ | .subAbs _
  | .subIdx _ | .subImm _ | .incAbs _ | .incIdx _ | .decAbs _ | .decIdx _ | .inw | .dew | .inx | .dex => false
  | .jfn _ | .ret | .phs | .pos | .pha | .poa => true

/-- The instructions that transfer control (41_cycle.md R139). -/
def transfersControl : Instr → Bool
  | .nop | .mov _ _ | .ldaAbs _ | .ldaIdx _ | .ldaImm _ | .ldwAbs _ | .ldwIdx _ | .ldwImm _ | .ldxAbs _
  | .ldxIdx _ | .ldxImm _ | .ldyAbs _ | .ldyIdx _ | .ldyImm _ | .ldzAbs _ | .ldzIdx _ | .ldzImm _ | .staAbs _
  | .staIdx _ | .stwAbs _ | .stwIdx _ | .stxAbs _ | .stxIdx _ | .styAbs _ | .styIdx _ | .stzAbs _ | .stzIdx _
  | .clc | .sec | .clo | .phs | .pos | .pha | .poa | .cmpAbs _ | .cmpIdx _ | .cmpImm _ | .cpwAbs _ | .cpwIdx _
  | .cpwImm _ | .cpxAbs _ | .cpxIdx _ | .cpxImm _ | .andAbs _ | .andIdx _ | .andImm _ | .oraAbs _ | .oraIdx _
  | .oraImm _ | .xorAbs _ | .xorIdx _ | .xorImm _ | .rolAbs _ | .rolAcc | .rorAbs _ | .rorAcc | .bsr | .bsl
  | .addAbs _ | .addIdx _ | .addImm _ | .subAbs _ | .subIdx _ | .subImm _ | .incAbs _ | .incIdx _ | .decAbs _
  | .decIdx _ | .inw | .dew | .inx | .dex => false
  | .jmpAbs _ | .jmpInd _ | .jfn _ | .ret | .bcc _ | .bcs _ | .bne _ | .beq _ | .brp _ | .brn _ => true

/-- The instructions whose execute part can raise a fault: those of the stack, and JMP Absolute-Indirect with P = 0xFFFF
(60_exceptions.md R241). -/
def mayFault (i : Instr) : Bool := usesStack i || decide (i = .jmpInd 0xFFFF)

/-- n chained calls of a rotate, each carry-out the next carry-in (40_alu.md R107). -/
def rotateTimes (f : Byte → Bool → Byte × Bool) : Nat → Byte × Bool → Byte × Bool
  | 0, p => p
  | n + 1, p => rotateTimes f n (f p.1 p.2)

/-- A sequence of pushes, as far as it goes (20_memory.md R64). -/
def pushAll : List Byte → State → Res Unit
  | [], s => .done () s
  | v :: vs, s => (push v s).bind fun _ s => pushAll vs s

/-- Two's complement value of a byte (40_alu.md R102). -/
abbrev signed (b : Byte) : Int := b.toInt

/-- A Boolean as 1 or 0 (00_scope.md R10). -/
def bit (b : Bool) : Nat := if b then 1 else 0

/-- An instruction `mk disp` branches exactly when `cond` holds: taken, it goes on at (pc + DISP) mod 2^16, otherwise at
pc + 3; it changes nothing else (43_control.md R164 to R169, 41_cycle.md R139). -/
def BranchesWhen (mk : Byte → Instr) (cond : State → Bool) : Prop :=
  ∀ (disp : Byte) (s : State), ∃ t, exec (mk disp) s = .next t ∧
    t.pc = (if cond s then BitVec.ofInt 16 (s.pc.toNat + disp.toInt) else s.pc + 3) ∧ Frame [] [] [] s t

/-- An instruction `mk o` compares a register with its operand: C, Z and N by unsigned order, nothing else
(45_compare_bitwise.md R195). -/
def ComparesReg (mk : Operand → Instr) (r : Reg) : Prop :=
  ∀ (o : Operand) (s : State), ∃ t, exec (mk o) s = .next t ∧
    t.flagC = decide ((o.value s).toNat ≤ (s.reg r).toNat) ∧
    t.flagZ = decide (s.reg r = o.value s) ∧
    t.flagN = decide ((s.reg r).toNat < (o.value s).toNat) ∧
    t.pc = s.pc + 3 ∧ Frame [] [7, 1, 0] [] s t

/-- An instruction `mk o` combines A bit by bit with its operand into A, with N and Z of the result
(45_compare_bitwise.md R198 to R200); its opcodes are `first`, `first + 1` and `first + 2`. -/
def CombinesBits (mk : Operand → Instr) (first : Byte) (g : Bool → Bool → Bool) : Prop :=
  (∀ (o : Operand) (pad : Byte),
    decode defaultOpcodeMap (o.opcodeFrom first) (o.bytes pad).1 (o.bytes pad).2 = .ok (mk o)) ∧
  ∀ (o : Operand) (s : State), ∃ t, exec (mk o) s = .next t ∧
    (∀ i : Nat, i < 8 → t.a.getLsbD i = g (s.a.getLsbD i) ((o.value s).getLsbD i)) ∧
    t.flagN = t.a.getLsbD 7 ∧ t.flagZ = decide (t.a = 0) ∧
    t.pc = s.pc + 3 ∧ Frame [.a] [7, 1] [] s t

/-- An instruction steps a register to `g` of its value mod 256, with N and Z of the result (47_arith_incdec.md R224 to
R227); its opcode is `op`. -/
def StepsReg (i : Instr) (op : Byte) (r : Reg) (g : Nat → Nat) : Prop :=
  (∀ a1 a2 : Byte, decode defaultOpcodeMap op a1 a2 = .ok i) ∧
  ∀ s : State, ∃ t, exec i s = .next t ∧
    (t.reg r).toNat = g (s.reg r).toNat % 256 ∧
    t.flagN = (t.reg r).getLsbD 7 ∧ t.flagZ = decide (t.reg r = 0) ∧
    t.pc = s.pc + 3 ∧ Frame [r] [7, 1] [] s t

/-- An instruction `mk c` steps a memory cell to `g` of its value mod 256, with N and Z of the result
(47_arith_incdec.md R222, R223). -/
def StepsCell (mk : CellOperand → Instr) (g : Nat → Nat) : Prop :=
  ∀ (c : CellOperand) (s : State), s.mem.wf = true → ∃ t, exec (mk c) s = .next t ∧
    (t.byteAt (c.addr s)).toNat = g (s.byteAt (c.addr s)).toNat % 256 ∧
    t.flagN = (t.byteAt (c.addr s)).getLsbD 7 ∧ t.flagZ = decide (t.byteAt (c.addr s) = 0) ∧
    t.pc = s.pc + 3 ∧ Frame [] [7, 1] [c.addr s] s t

/-- An instruction of a single operation on the flags: opcode `op`, flag bit `b` becomes `v`, and every other flag, register
and cell is unchanged (44_flags_stack.md R180 to R182). -/
def SetsFlag (i : Instr) (op : Byte) (b : Nat) (v : Bool) : Prop :=
  (∀ a1 a2 : Byte, decode defaultOpcodeMap op a1 a2 = .ok i) ∧
  ∀ s : State, ∃ t, exec i s = .next t ∧ t.readFlags.getLsbD b = v ∧ t.pc = s.pc + 3 ∧ Frame [] [b] [] s t

/-- An instruction pushes one byte: opcode `op`, the byte `v s` in the cell SP names and SP one lower; on a full stack
StackFault(push) and nothing else (20_memory.md R62, 44_flags_stack.md R183, R185). -/
def PushesByte (i : Instr) (op : Byte) (v : State → Byte) : Prop :=
  (∀ a1 a2 : Byte, decode defaultOpcodeMap op a1 a2 = .ok i) ∧
  (∀ s : State, s.StackOk → s.sp ≠ s.config.spMin → ∃ t, exec i s = .next t ∧
    t.byteAt s.stackCell = v s ∧ t.sp = s.sp - 1 ∧ t.pc = s.pc + 3 ∧ StackFrame [] [] [s.stackCell] s t) ∧
  ∀ s : State, s.sp = s.config.spMin → exec i s = .next (s.asFaulted .stackFault 4 .push)

end Sys2Proof.Machine
end

