-- ==== Sys2Proof/Certificates/Slice0/Obligations.lean ====
section
/-! DEFINITION. The statements for the provers, in OBLIGATIONS.json's order. -/

open Sys2Proof Sys2Proof.Machine

/-! ### Encoding -/

/-- Every instruction the map in force has an opcode for is encoded in three bytes that decode to it, whatever bytes follow
(30_encoding.md R70, R71, R80, R94). -/
def Obligations.DecodeOfEncodeIsTheInstruction : Prop :=
  ∀ (m : OpcodeMap) (i : Instr), i.wellFormed m = true →
    ∃ bytes, encode m i = some bytes ∧ bytes.length = 3 ∧
      ∀ rest : List Byte, decodeBytes m (bytes ++ rest) = .ok (i, rest)

/-- What decodes selects its form by the opcode alone, and every operand byte the mode reads is the one the encoder writes
(30_encoding.md R72, R80). -/
def Obligations.DecodedOperandBytesAreEncodedBack : Prop :=
  ∀ (m : OpcodeMap) (op a1 a2 : Byte) (i : Instr), decode m op a1 a2 = .ok i →
    m.lookup op = some i.form ∧
    (usesA1 i.form.mode = true → (operandBytes i).1 = a1) ∧ (usesA2 i.form.mode = true → (operandBytes i).2 = a2)

/-- Operand bytes the mode does not use do not change what is decoded, and the encoder writes 0 there (30_encoding.md R76). -/
def Obligations.UnusedOperandBytesAreIgnored : Prop :=
  (∀ (m : OpcodeMap) (op a1 a2 b1 b2 : Byte) (f : Form), m.lookup op = some f →
    (usesA1 f.mode = true → a1 = b1) → (usesA2 f.mode = true → a2 = b2) → decode m op a1 a2 = decode m op b1 b2) ∧
  ∀ i : Instr, (usesA1 i.form.mode = false → (operandBytes i).1 = 0) ∧
    (usesA2 i.form.mode = false → (operandBytes i).2 = 0)

/-- The decoder answers an instruction exactly where the opcode is mapped and, for MOV, both indices are in 1..5
(30_encoding.md R79, R86, 41_cycle.md R130). -/
def Obligations.DecoderRejectsExactlyTheIllegal : Prop :=
  ∀ (m : OpcodeMap) (op a1 a2 : Byte),
    (∃ i, decode m op a1 a2 = .ok i) ↔
      ∃ f, m.lookup op = some f ∧
        (f = .mov → (1 ≤ a1.toNat ∧ a1.toNat ≤ 5) ∧ (1 ≤ a2.toNat ∧ a2.toNat ≤ 5))

/-- Every instruction has an encoding under the default map, and the opcodes the map leaves out are 68 and 83..255
(30_encoding.md R82, R84, R85; the map's values are the spec's own choice, D2, log 12). -/
def Obligations.DefaultMapEncodesEveryInstruction : Prop :=
  (∀ i : Instr, i.wellFormed defaultOpcodeMap = true) ∧
  ∀ op : Byte, defaultOpcodeMap.lookup op = none ↔ op.toNat = 68 ∨ 83 ≤ op.toNat

/-- The words of the source's scenario A and of 30_encoding.md R97 decode to the instructions they stand for. -/
def Obligations.SampleWordsDecode : Prop :=
  decodeTableWord 24 0x040500 = some (.ldaImm 5) ∧
  decodeTableWord 24 0x120000 = some (.staIdx 0) ∧
  decodeTableWord 24 0x470300 = some (.addImm 3) ∧
  decodeTableWord 24 0x110200 = some (.staAbs 0x0200) ∧
  decodeTableWord 24 0x21FA00 = some (.bne 0xFA) ∧
  decodeTableWord 24 0x1C0300 = some (.jmpInd 0x0300) ∧
  decodeTableWord 24 0x010103 = some (.mov .a .x) ∧
  decodeTableWord 24 0x3F0000 = some .rolAcc

/-! ### The controller -/

/-- When the bytes at pc decode to an instruction, the step is its exec and nothing around it: the pc advance is inside exec
(41_cycle.md R128, R130, R131, R138). -/
def Obligations.StepRunsTheDecodedInstruction : Prop :=
  ∀ (s : State) (i : Instr), s.AtInstruction → s.pc.toNat + 2 < 65536 →
    decode s.config.opcodeMap (s.byteAt s.pc.toNat) (s.byteAt (s.pc.toNat + 1)) (s.byteAt (s.pc.toNat + 2)) = .ok i →
    step s = exec i s

/-- Bytes that are no instruction raise IllegalInstruction before any effect: only status and FAULT change, and FAULT holds
kind, code 3, pc and the opcode, with a1 and a2 for a MOV (41_cycle.md R130, 60_exceptions.md R242). -/
def Obligations.IllegalInstructionFaultsWithNoEffect : Prop :=
  ∀ s : State, s.AtInstruction → s.pc.toNat + 2 < 65536 →
    (s.config.opcodeMap.lookup (s.byteAt s.pc.toNat) = none →
      step s = .next (s.asFaulted .illegalInstruction 3 (.opcode (s.byteAt s.pc.toNat)))) ∧
    (s.config.opcodeMap.lookup (s.byteAt s.pc.toNat) = some .mov →
      ¬(((1 ≤ (s.byteAt (s.pc.toNat + 1)).toNat ∧ (s.byteAt (s.pc.toNat + 1)).toNat ≤ 5)) ∧
        (1 ≤ (s.byteAt (s.pc.toNat + 2)).toNat ∧ (s.byteAt (s.pc.toNat + 2)).toNat ≤ 5)) →
      step s = .next (s.asFaulted .illegalInstruction 3
        (.movOperands (s.byteAt s.pc.toNat) (s.byteAt (s.pc.toNat + 1)) (s.byteAt (s.pc.toNat + 2)))))

/-- An instruction that would begin at 0xFFFE or 0xFFFF raises AddressFault(0x10000) at its fetch and changes nothing else
(41_cycle.md R128, 60_exceptions.md R242). -/
def Obligations.FetchPastTheTopFaults : Prop :=
  ∀ s : State, s.AtInstruction → 0xFFFE ≤ s.pc.toNat →
    step s = .next (s.asFaulted .addressFault 5 (.address 0x10000))

/-- The controller steps only in Running, and where pc < END is false, between the 16-bit pc and the exact integer END, it
writes Halted and changes nothing else (41_cycle.md R126); after the loop test, while SUSPEND holds for pc, it changes
nothing (R127). That Ready, Halted, Faulted and a suspended core answer the same state is the model's way to say they have no
step (log 4). -/
def Obligations.LoopTestThenSuspendDecideTheStep : Prop :=
  (∀ s : State, s.host.events = [] → s.status ≠ .running → step s = .next s) ∧
  (∀ s : State, s.host.events = [] → s.status = .running → s.endAddr ≤ s.pc.toNat →
    step s = .next { s with status := .halted }) ∧
  ∀ s : State, s.host.events = [] → s.status = .running → s.pc.toNat < s.endAddr → s.pc ∈ s.host.suspend →
    step s = .next s

/-- A run whose END is above 0xFFFF is never halted by a step (41_cycle.md R136). -/
def Obligations.EndPastTheTopNeverHalts : Prop :=
  ∀ s t : State, s.host.events = [] → s.status = .running → 0xFFFF < s.endAddr → step s = .next t →
    t.endAddr = s.endAddr ∧ (t.status = .running ∨ t.status = .faulted)

/-- The invariant holds right after reset. -/
def Obligations.ResetMeetsTheInvariant : Prop := State.reset.Inv

/-- Every step keeps the invariant, instructions, faults, startup and host actions alike. -/
def Obligations.EveryStepKeepsTheInvariant : Prop :=
  ∀ s t : State, s.Inv → step s = .next t → t.Inv

/-- Every step of every state answers a next state: no instruction is refused, and a fault of the spec is a next state
(60_exceptions.md R243; log 5). -/
def Obligations.EveryStepAnswersANextState : Prop :=
  (∀ (i : Instr) (s : State), ∃ t, exec i s = .next t) ∧ ∀ s : State, ∃ t, step s = .next t

/-- No instruction writes START, END, the configuration or the host's inputs (10_state.md R36, R41). -/
def Obligations.InstructionsKeepTheControllerSetUp : Prop :=
  ∀ (i : Instr) (s t : State), exec i s = .next t →
    t.startAddr = s.startAddr ∧ t.endAddr = s.endAddr ∧ t.config = s.config ∧ t.host = s.host

/-- An instruction writes no general register but those of 10_state.md R22's table. -/
def Obligations.InstructionsWriteOnlyTheirRegisters : Prop :=
  ∀ (i : Instr) (s t : State), exec i s = .next t → RegsKept (writtenRegs i) s t

/-- An instruction writes no flag but those of 10_state.md R29's table, and bit 5 reads 1 after every instruction (R28). -/
def Obligations.InstructionsWriteOnlyTheirFlags : Prop :=
  ∀ (i : Instr) (s t : State), exec i s = .next t →
    FlagsKept (writtenFlags i) s t ∧ t.readFlags.getLsbD 5 = true

/-- An instruction that 20_memory.md R49's table gives no write leaves all of memory as it is, and only the stack
instructions move SP (10_state.md R31). -/
def Obligations.OnlyWritersChangeMemoryAndStackPointer : Prop :=
  ∀ (i : Instr) (s t : State), exec i s = .next t →
    (writesMemory i = false → t.mem = s.mem) ∧ (usesStack i = false → t.sp = s.sp)

/-- After an instruction that transfers no control the pc is pc + 3, or, where the instruction faulted, pc itself
(41_cycle.md R133, R139, 60_exceptions.md R243). -/
def Obligations.PcAdvancesByThreeOrStaysAtAFault : Prop :=
  ∀ (i : Instr) (s t : State), transfersControl i = false → s.status ≠ .faulted → exec i s = .next t →
    t.pc = if t.status = .faulted then s.pc else s.pc + 3

/-- The execute part of an instruction can fault only in JFN, RET, PHS, POS, PHA, POA and in JMP Absolute-Indirect at 0xFFFF
(60_exceptions.md R241). -/
def Obligations.OnlyStackAndTopPointerFormsFault : Prop :=
  ∀ (i : Instr) (s t : State), s.status ≠ .faulted → exec i s = .next t → t.status = .faulted → mayFault i = true

/-- Faults in the execute part are precise but for JFN and RET: only status and FAULT differ from the state before, and FAULT
records the pc of the faulting instruction (60_exceptions.md R243, R244). -/
def Obligations.ExecuteFaultsArePrecise : Prop :=
  ∀ (i : Instr) (s t : State), s.config.wf = true → s.SpInRange → s.status ≠ .faulted →
    (∀ addr, i ≠ .jfn addr) → i ≠ .ret → exec i s = .next t → t.status = .faulted →
    ∃ info : FaultInfo, t = s.asFaulted info.kind info.kind.code info

/-! ### The ALU -/

/-- The ripple-carry adder is modular addition, its carry-out the unsigned and its overflow the signed out-of-range bit, for
every a, b and cin (40_alu.md R102). -/
def Obligations.AdderMatchesModularAddition : Prop :=
  ∀ (a b : Byte) (cin : Bool),
    (add8 a b cin).r.toNat = (a.toNat + b.toNat + bit cin) % 256 ∧
    (add8 a b cin).carry = decide (256 ≤ a.toNat + b.toNat + bit cin) ∧
    (add8 a b cin).overflow =
      decide (signed a + signed b + (bit cin : Int) < -128 ∨ 127 < signed a + signed b + (bit cin : Int))

/-- The subtractor: a - b - (1 - cin) mod 256, carry-out 1 for no borrow, overflow where the signs of a and b differ and the
result's differs from a's (40_alu.md R103). -/
def Obligations.SubtractorMatchesBorrowArithmetic : Prop :=
  ∀ (a b : Byte) (cin : Bool),
    sub8 a b cin = add8 a (~~~b) cin ∧
    (sub8 a b cin).r.toNat = (a.toNat + 256 - b.toNat - (1 - bit cin)) % 256 ∧
    (sub8 a b cin).carry = decide (b.toNat + (1 - bit cin) ≤ a.toNat) ∧
    (sub8 a b cin).overflow =
      (a.getLsbD 7 != b.getLsbD 7 && (sub8 a b cin).r.getLsbD 7 != a.getLsbD 7)

/-- ROL8: r = ((v << 1) | cin) mod 256 and bit 7 is ejected; ROR8: r = (cin << 7) | (v >> 1) and bit 0 is ejected; SHL8 and
SHR8 are the same with cin = 0 (40_alu.md R104 to R106). -/
def Obligations.RotatesAndShiftsAsNumbers : Prop :=
  ∀ (v : Byte) (cin : Bool),
    ((rol8 v cin).1.toNat = (2 * v.toNat + bit cin) % 256 ∧ (rol8 v cin).2 = decide (128 ≤ v.toNat)) ∧
    ((ror8 v cin).1.toNat = 128 * bit cin + v.toNat / 2 ∧ (ror8 v cin).2 = decide (v.toNat % 2 = 1)) ∧
    ((shl8 v).1.toNat = 2 * v.toNat % 256 ∧ (shl8 v).2 = decide (128 ≤ v.toNat)) ∧
    ((shr8 v).1.toNat = v.toNat / 2 ∧ (shr8 v).2 = decide (v.toNat % 2 = 1))

/-- Nine chained rotates give value and carry back; eight left rotates give (cin << 7) | (v >> 1) and v[0]
(40_alu.md R107). -/
def Obligations.NineChainedRotatesAreTheIdentity : Prop :=
  ∀ (v : Byte) (cin : Bool),
    rotateTimes rol8 9 (v, cin) = (v, cin) ∧ rotateTimes ror8 9 (v, cin) = (v, cin) ∧
    rotateTimes rol8 8 (v, cin) = (ror8 v cin)

/-- Two chained additions, low bytes first, are the 16-bit sum with its carry, and two chained subtractions with no incoming
borrow are the 16-bit difference with no-borrow as carry (47_arith_incdec.md R228). -/
def Obligations.ChainedBytesAddAndSubtractWords : Prop :=
  ∀ x y : Word,
    (let l := add8 (loByte x) (loByte y) false
     let h := add8 (hiByte x) (hiByte y) l.carry
     65536 * bit h.carry + 256 * h.r.toNat + l.r.toNat = x.toNat + y.toNat) ∧
    (let l := sub8 (loByte x) (loByte y) true
     let h := sub8 (hiByte x) (hiByte y) l.carry
     256 * h.r.toNat + l.r.toNat = (x - y).toNat ∧ h.carry = decide (y.toNat ≤ x.toNat))

/-! ### Memory and the stack engine -/

/-- After `MemWrite(addr, 1, v)` inside the space, `MemRead` at addr returns v and at every other address of the space what it
returned before; both raise AddressFault(addr) at 65536 and above (20_memory.md R46 to R48). The canonical form is the model's
(log 18); the record and its code are those of 60_exceptions.md R240 and R242 (D18) in the model's shape (log 14). -/
def Obligations.MemReadReturnsTheLastMemWrite : Prop :=
  (∀ (s : State) (addr : Nat) (v : Byte), s.mem.wf = true → addr < 65536 →
    ∃ t, memWrite addr v s = .done () t ∧ t.mem.wf = true ∧ memRead addr t = .done v t ∧
      ∀ n, n < 65536 → n ≠ addr → ∃ u, memRead n s = .done u s ∧ memRead n t = .done u t) ∧
  ∀ (s : State) (addr : Nat) (v : Byte), 65536 ≤ addr →
    memRead addr s = .raised (s.asFaulted .addressFault 5 (.address addr)) ∧
    memWrite addr v s = .raised (s.asFaulted .addressFault 5 (.address addr))

/-- A byte pushed is the byte popped: SP comes back, and the only cell that changed is the vacated one, which holds 0
(20_memory.md R62, R63). -/
def Obligations.PopReturnsThePushedByte : Prop :=
  ∀ (s : State) (v : Byte), s.StackOk → s.sp ≠ s.config.spMin →
    ∃ t u, push v s = .done () t ∧ t.sp = s.sp - 1 ∧ t.byteAt s.stackCell = v ∧
      pop t = .done v u ∧ u.sp = s.sp ∧ u.byteAt s.stackCell = 0 ∧ u.pc = s.pc ∧ StackFrame [] [] [s.stackCell] s u

/-- From SP = SP_TOP any sequence of at most STACK_CAPACITY bytes is pushed, each below the one before it, and one byte more
raises StackFault(push) (20_memory.md R64). -/
def Obligations.ExactlyCapacityPushesSucceed : Prop :=
  ∀ (s : State) (vs : List Byte), s.config.wf = true → s.mem.wf = true → s.sp = s.config.spTop →
    (vs.length ≤ s.config.stackCapacity.toNat →
      ∃ t, pushAll vs s = .done () t ∧ t.sp.toNat = s.config.spTop.toNat - vs.length ∧
        ∀ k, k < vs.length →
          t.byteAt (s.config.stackBase.toNat + s.config.spTop.toNat - k) = vs.getD k 0) ∧
    (s.config.stackCapacity.toNat < vs.length →
      ∃ t, pushAll vs s = .raised t ∧ t.status = .faulted ∧
        t.fault = some { kind := .stackFault, code := 4, pc := s.pc, info := .push } ∧ t.sp = s.config.spMin)

/-- Peek reads a stack cell without effect, and reports StackFault to the host for any other address (20_memory.md R66). -/
def Obligations.PeekReadsOnlyStackCells : Prop :=
  ∀ (s : State) (addr : Nat),
    peek addr s =
      if s.config.stackBase.toNat + s.config.spMin.toNat < addr ∧
          addr < s.config.stackBase.toNat + s.config.spTop.toNat + 1 then
        .ok (s.mem.read addr)
      else .error .stackFault

/-! ### No-op, loads, stores, move -/

/-- NOP changes nothing but pc, and `00 x y` is NOP for every x and y (42_load_store_move.md R140). -/
def Obligations.NopOnlyAdvancesThePc : Prop :=
  (∀ a1 a2 : Byte, decode defaultOpcodeMap 0x00 a1 a2 = .ok .nop) ∧
  ∀ s : State, exec .nop s = .next { s with pc := s.pc + 3 }

/-- LDA, LDW, LDX, LDY and LDZ in every mode: the register holds the operand, N and Z are the operand's, nothing else but pc
changes (42_load_store_move.md R141 to R145). The opcodes are
the default OPCODE_MAP's, the spec's own choice (D2, log 12); only 0x04 is the source's. -/
def Obligations.LoadsWriteTheOperandAndSetNZ : Prop :=
  (∀ (r : Reg) (o : Operand) (pad : Byte),
    decode defaultOpcodeMap (loadOpcode r o) (o.bytes pad).1 (o.bytes pad).2 = .ok (loadInstr r o)) ∧
  ∀ (r : Reg) (o : Operand) (s : State), ∃ t, exec (loadInstr r o) s = .next t ∧
    t.reg r = o.value s ∧ t.flagN = (o.value s).getLsbD 7 ∧ t.flagZ = decide (o.value s = 0) ∧
    t.pc = s.pc + 3 ∧ Frame [r] [7, 1] [] s t

/-- STA, STW, STX, STY and STZ in both modes: the cell holds the register, no flag and nothing else but pc changes
(42_load_store_move.md R146 to R150). The opcodes are the default OPCODE_MAP's, the spec's own choice (D2, log 12);
only 0x12 is the source's, and C2 settles 0x11. -/
def Obligations.StoresWriteTheRegisterOnly : Prop :=
  (∀ (r : Reg) (c : CellOperand) (pad : Byte),
    decode defaultOpcodeMap (storeOpcode r c) (c.bytes pad).1 (c.bytes pad).2 = .ok (storeInstr r c)) ∧
  ∀ (r : Reg) (c : CellOperand) (s : State), s.mem.wf = true → ∃ t, exec (storeInstr r c) s = .next t ∧
    t.byteAt (c.addr s) = s.reg r ∧ t.pc = s.pc + 3 ∧ Frame [] [] [c.addr s] s t

/-- MOV copies the source into the destination and sets N and Z from it, the same register twice included
(42_load_store_move.md R151). -/
def Obligations.MovCopiesAndSetsNZ : Prop :=
  ∀ (src dst : Reg) (s : State), ∃ t, exec (.mov src dst) s = .next t ∧
    t.reg dst = s.reg src ∧ t.flagN = (s.reg src).getLsbD 7 ∧ t.flagZ = decide (s.reg src = 0) ∧
    t.pc = s.pc + 3 ∧ Frame [dst] [7, 1] [] s t

/-! ### Control transfer -/

/-- JMP Absolute goes on at T + 3 mod 2^16; JMP Absolute-Indirect at the big-endian pointer at P and P + 1, plus 3, and at
P = 0xFFFF it raises AddressFault(0x10000) with no other effect (43_control.md R160, R161, 41_cycle.md R139; the landing at
target + 3 and the byte order are the spec's decisions D7 and D6). -/
def Obligations.JumpsLandThreePastTheirTarget : Prop :=
  (∀ (addr : Word) (s : State), ∃ t, exec (.jmpAbs addr) s = .next t ∧
    t.pc.toNat = (addr.toNat + 3) % 65536 ∧ Frame [] [] [] s t) ∧
  (∀ (ptr : Word) (s : State), ptr ≠ 0xFFFF → ∃ t, exec (.jmpInd ptr) s = .next t ∧
    t.pc.toNat = (256 * (s.byteAt ptr.toNat).toNat + (s.byteAt (ptr.toNat + 1)).toNat + 3) % 65536 ∧
    Frame [] [] [] s t) ∧
  ∀ s : State, exec (.jmpInd 0xFFFF) s = .next (s.asFaulted .addressFault 5 (.address 0x10000))

/-- JFN with two free stack bytes pushes its own address, high byte first, and goes on at T + 3 (43_control.md R162). -/
def Obligations.JfnPushesItsAddressAndJumps : Prop :=
  ∀ (addr : Word) (s : State), s.StackOk → s.config.spMin.toNat + 2 ≤ s.sp.toNat →
    ∃ t, exec (.jfn addr) s = .next t ∧
      (t.byteAt s.stackCell).toNat = s.pc.toNat / 256 ∧ (t.byteAt (s.stackCell - 1)).toNat = s.pc.toNat % 256 ∧
      t.sp.toNat = s.sp.toNat - 2 ∧ t.pc.toNat = (addr.toNat + 3) % 65536 ∧
      StackFrame [] [] [s.stackCell, s.stackCell - 1] s t

/-- JFN with fewer than two free bytes raises StackFault(push): with none, nothing else changes; with one, the high byte is
written and SP moved before the second Push faults, and pc is not advanced (43_control.md R162, 60_exceptions.md R244). -/
def Obligations.JfnFaultsOnAFullStack : Prop :=
  ∀ (addr : Word) (s : State),
    (s.sp = s.config.spMin → exec (.jfn addr) s = .next (s.asFaulted .stackFault 4 .push)) ∧
    (s.StackOk → s.sp.toNat = s.config.spMin.toNat + 1 →
      exec (.jfn addr) s =
        .next (({ s with mem := s.mem.write s.stackCell (hiByte s.pc), sp := s.config.spMin }).asFaulted
          .stackFault 4 .push))

/-- RET with two bytes on the stack pops the low byte, then the high byte, zeroes both cells and goes on at the popped
address plus 3 (43_control.md R163). -/
def Obligations.RetPopsAnAddressAndGoesOnAfterIt : Prop :=
  ∀ s : State, s.StackOk → s.sp.toNat + 2 ≤ s.config.spTop.toNat →
    ∃ t, exec .ret s = .next t ∧
      t.pc.toNat =
        (256 * (s.byteAt (s.stackCell + 2)).toNat + (s.byteAt (s.stackCell + 1)).toNat + 3) % 65536 ∧
      t.byteAt (s.stackCell + 1) = 0 ∧ t.byteAt (s.stackCell + 2) = 0 ∧ t.sp.toNat = s.sp.toNat + 2 ∧
      StackFrame [] [] [s.stackCell + 1, s.stackCell + 2] s t

/-- RET with fewer than two bytes raises StackFault(pop): with none, nothing else changes; with one, that byte's cell is
zeroed and SP moved before the second Pop faults, and pc is not advanced (43_control.md R163, 60_exceptions.md R244). -/
def Obligations.RetFaultsOnAShortStack : Prop :=
  ∀ s : State,
    (s.sp = s.config.spTop → exec .ret s = .next (s.asFaulted .stackFault 4 .pop)) ∧
    (s.StackOk → s.sp.toNat + 1 = s.config.spTop.toNat →
      exec .ret s =
        .next (({ s with mem := s.mem.write (s.stackCell + 1) 0, sp := s.config.spTop }).asFaulted .stackFault 4 .pop))

/-- RET right after JFN goes on at the instruction after the JFN with SP, registers and flags as before the call
(43_control.md R162, R163). -/
def Obligations.RetAfterJfnContinuesAfterTheCall : Prop :=
  ∀ (addr : Word) (s : State), s.StackOk → s.config.spMin.toNat + 2 ≤ s.sp.toNat →
    ∃ t u, exec (.jfn addr) s = .next t ∧ exec .ret t = .next u ∧
      u.pc = s.pc + 3 ∧ Frame [] [] [s.stackCell, s.stackCell - 1] s u

/-- The six branches: BCC on C = 0, BCS on C = 1, BNE on Z = 0, BEQ on Z = 1, BRP on N = 0, BRN on N = 1; taken they go on at
pc + DISP, else at pc + 3, and nothing else changes (43_control.md R164 to R169). -/
def Obligations.BranchesTestTheirFlag : Prop :=
  BranchesWhen .bcc (fun s => !s.flagC) ∧ BranchesWhen .bcs (fun s => s.flagC) ∧
  BranchesWhen .bne (fun s => !s.flagZ) ∧ BranchesWhen .beq (fun s => s.flagZ) ∧
  BranchesWhen .brp (fun s => !s.flagN) ∧ BranchesWhen .brn (fun s => s.flagN)

/-! ### Flags and stack -/

/-- CLC clears C, SEC sets C, CLO clears V, and nothing else but pc changes (44_flags_stack.md R180 to R182). The
opcodes are the default OPCODE_MAP's, the spec's own choice (D2, log 12). -/
def Obligations.ClcSecCloWriteOneFlag : Prop :=
  SetsFlag .clc 0x25 0 false ∧ SetsFlag .sec 0x26 0 true ∧ SetsFlag .clo 0x27 6 false

/-- PHS pushes the whole flags byte, bit 5 reading 1, and PHA pushes A; on a full stack both raise StackFault(push) and write
nothing (44_flags_stack.md R183, R185). The opcodes are the default OPCODE_MAP's, the spec's own choice (D2, log 12); the
record and its code are those of 60_exceptions.md R240 and R242 (D18) in the model's shape (log 14). -/
def Obligations.PhsAndPhaPushOneByte : Prop :=
  PushesByte .phs 0x28 (fun s => s.flags ||| 0x20) ∧ PushesByte .pha 0x2A (fun s => s.a)

/-- POS takes every flag bit from the popped byte but bit 5, which stays 1, and zeroes the cell; on an empty stack it raises
StackFault(pop) and changes nothing (44_flags_stack.md R184). -/
def Obligations.PosWritesTheWholeFlags : Prop :=
  (∀ s : State, s.StackOk → s.sp ≠ s.config.spTop → ∃ t, exec .pos s = .next t ∧
    t.readFlags = s.byteAt (s.stackCell + 1) ||| 0x20 ∧ t.byteAt (s.stackCell + 1) = 0 ∧
    t.sp = s.sp + 1 ∧ t.pc = s.pc + 3 ∧ StackFrame [] [7, 6, 4, 3, 2, 1, 0] [s.stackCell + 1] s t) ∧
  ∀ s : State, s.sp = s.config.spTop → exec .pos s = .next (s.asFaulted .stackFault 4 .pop)

/-- POA pops into A, sets N and Z from the byte and zeroes its cell; on an empty stack it raises StackFault(pop) and changes
nothing (44_flags_stack.md R186). The opcode is the default OPCODE_MAP's, the spec's own choice (D2, log 12); the record
and its code are those of 60_exceptions.md R240 and R242 (D18) in the model's shape (log 14). -/
def Obligations.PoaPopsIntoAAndSetsNZ : Prop :=
  (∀ a1 a2 : Byte, decode defaultOpcodeMap 0x2B a1 a2 = .ok .poa) ∧
  (∀ s : State, s.StackOk → s.sp ≠ s.config.spTop → ∃ t, exec .poa s = .next t ∧
    t.a = s.byteAt (s.stackCell + 1) ∧ t.flagN = t.a.getLsbD 7 ∧ t.flagZ = decide (t.a = 0) ∧
    t.byteAt (s.stackCell + 1) = 0 ∧ t.sp = s.sp + 1 ∧ t.pc = s.pc + 3 ∧
    StackFrame [.a] [7, 1] [s.stackCell + 1] s t) ∧
  ∀ s : State, s.sp = s.config.spTop → exec .poa s = .next (s.asFaulted .stackFault 4 .pop)

/-- PHS then POS gives every flag back as it read (10_state.md R28, 44_flags_stack.md R183, R184). -/
def Obligations.PosAfterPhsRestoresTheFlags : Prop :=
  ∀ s : State, s.StackOk → s.sp ≠ s.config.spMin →
    ∃ t u, exec .phs s = .next t ∧ exec .pos t = .next u ∧
      u.readFlags = s.readFlags ∧ u.pc = s.pc + 6 ∧ Frame [] [] [s.stackCell] s u

/-! ### Compare, bitwise, rotate, shift, arithmetic -/

/-- CMP, CPW and CPX in every mode: C is reg >= op, Z is reg = op, N is reg < op, unsigned; V, the registers and memory are
unchanged (45_compare_bitwise.md R195 to R197). -/
def Obligations.ComparesSetUnsignedOrder : Prop :=
  ComparesReg cmpInstr .a ∧ ComparesReg cpwInstr .w ∧ ComparesReg cpxInstr .x

/-- AND, ORA and XOR in every mode: A becomes the bitwise result, N and Z are the result's, C and V are unchanged
(45_compare_bitwise.md R198 to R200). The opcodes are the default OPCODE_MAP's, the spec's own choice (D2, log 12). -/
def Obligations.BitwiseIntoAAndSetNZ : Prop :=
  CombinesBits andInstr 0x35 (fun a b => a && b) ∧ CombinesBits oraInstr 0x38 (fun a b => a || b) ∧
  CombinesBits xorInstr 0x3B (fun a b => a != b)

/-- ROL and ROR of the accumulator: the rotate through C, with C the ejected bit, N and Z of the result, V unchanged
(46_rotate_shift.md R210, R211). -/
def Obligations.RotatesOfTheAccumulator : Prop :=
  ∀ s : State,
    (∃ t, exec .rolAcc s = .next t ∧ t.a.toNat = (2 * s.a.toNat + bit s.flagC) % 256 ∧ t.flagC = s.a.getLsbD 7 ∧
      t.flagN = t.a.getLsbD 7 ∧ t.flagZ = decide (t.a = 0) ∧ t.pc = s.pc + 3 ∧ Frame [.a] [7, 1, 0] [] s t) ∧
    (∃ t, exec .rorAcc s = .next t ∧ t.a.toNat = 128 * bit s.flagC + s.a.toNat / 2 ∧ t.flagC = s.a.getLsbD 0 ∧
      t.flagN = t.a.getLsbD 7 ∧ t.flagZ = decide (t.a = 0) ∧ t.pc = s.pc + 3 ∧ Frame [.a] [7, 1, 0] [] s t)

/-- ROL and ROR of a memory cell: the rotate through C, with C the ejected bit and N of the result; Z and V are unchanged
(46_rotate_shift.md R210, R211). -/
def Obligations.RotatesOfAMemoryCell : Prop :=
  ∀ (addr : Word) (s : State), s.mem.wf = true →
    (∃ t, exec (.rolAbs addr) s = .next t ∧
      (t.byteAt addr.toNat).toNat = (2 * (s.byteAt addr.toNat).toNat + bit s.flagC) % 256 ∧
      t.flagC = (s.byteAt addr.toNat).getLsbD 7 ∧ t.flagN = (t.byteAt addr.toNat).getLsbD 7 ∧
      t.pc = s.pc + 3 ∧ Frame [] [7, 0] [addr.toNat] s t) ∧
    (∃ t, exec (.rorAbs addr) s = .next t ∧
      (t.byteAt addr.toNat).toNat = 128 * bit s.flagC + (s.byteAt addr.toNat).toNat / 2 ∧
      t.flagC = (s.byteAt addr.toNat).getLsbD 0 ∧ t.flagN = (t.byteAt addr.toNat).getLsbD 7 ∧
      t.pc = s.pc + 3 ∧ Frame [] [7, 0] [addr.toNat] s t)

/-- BSR and BSL: logical shifts of A, with C the ejected bit and N of the result (always 0 for BSR); Z and V are unchanged
(46_rotate_shift.md R212, R213). -/
def Obligations.ShiftsOfTheAccumulator : Prop :=
  ∀ s : State,
    (∃ t, exec .bsr s = .next t ∧ t.a.toNat = s.a.toNat / 2 ∧ t.flagC = s.a.getLsbD 0 ∧ t.flagN = false ∧
      t.pc = s.pc + 3 ∧ Frame [.a] [7, 0] [] s t) ∧
    (∃ t, exec .bsl s = .next t ∧ t.a.toNat = 2 * s.a.toNat % 256 ∧ t.flagC = s.a.getLsbD 7 ∧
      t.flagN = s.a.getLsbD 6 ∧ t.pc = s.pc + 3 ∧ Frame [.a] [7, 0] [] s t)

/-- ADD in every mode: A + op + C mod 256, C the unsigned carry, V where the operands' signs agree and the result's differs,
N and Z of the result (47_arith_incdec.md R220). The opcodes are the default OPCODE_MAP's, the spec's own choice (D2, log 12);
only 0x47 is the source's. -/
def Obligations.AddAddsWithCarry : Prop :=
  (∀ (o : Operand) (pad : Byte),
    decode defaultOpcodeMap (o.opcodeFrom 0x45) (o.bytes pad).1 (o.bytes pad).2 = .ok (addInstr o)) ∧
  ∀ (o : Operand) (s : State), ∃ t, exec (addInstr o) s = .next t ∧
    t.a.toNat = (s.a.toNat + (o.value s).toNat + bit s.flagC) % 256 ∧
    t.flagC = decide (256 ≤ s.a.toNat + (o.value s).toNat + bit s.flagC) ∧
    t.flagV = (s.a.getLsbD 7 == (o.value s).getLsbD 7 && t.a.getLsbD 7 != s.a.getLsbD 7) ∧
    t.flagN = t.a.getLsbD 7 ∧ t.flagZ = decide (t.a = 0) ∧
    t.pc = s.pc + 3 ∧ Frame [.a] [7, 6, 1, 0] [] s t

/-- SUB in every mode: A - op - (1 - C) mod 256, C set for no borrow, V where the signs of A and op differ and the result's
differs from A's, N and Z of the result (47_arith_incdec.md R221). The opcodes are the default OPCODE_MAP's, the spec's own
choice (D2, log 12). -/
def Obligations.SubSubtractsWithBorrow : Prop :=
  (∀ (o : Operand) (pad : Byte),
    decode defaultOpcodeMap (o.opcodeFrom 0x48) (o.bytes pad).1 (o.bytes pad).2 = .ok (subInstr o)) ∧
  ∀ (o : Operand) (s : State), ∃ t, exec (subInstr o) s = .next t ∧
    t.a.toNat = (s.a.toNat + 256 - (o.value s).toNat - (1 - bit s.flagC)) % 256 ∧
    t.flagC = decide ((o.value s).toNat + (1 - bit s.flagC) ≤ s.a.toNat) ∧
    t.flagV = (s.a.getLsbD 7 != (o.value s).getLsbD 7 && t.a.getLsbD 7 != s.a.getLsbD 7) ∧
    t.flagN = t.a.getLsbD 7 ∧ t.flagZ = decide (t.a = 0) ∧
    t.pc = s.pc + 3 ∧ Frame [.a] [7, 6, 1, 0] [] s t

/-- INC and DEC in both modes: the cell plus or minus 1 mod 256, with N and Z of the result; C, V and every other cell are
unchanged (47_arith_incdec.md R222, R223). -/
def Obligations.IncAndDecStepACell : Prop :=
  StepsCell incInstr (fun n => n + 1) ∧ StepsCell decInstr (fun n => n + 255)

/-- INW, DEW, INX and DEX: the register plus or minus 1 mod 256, with N and Z of the result; nothing else but pc changes
(47_arith_incdec.md R224 to R227). The opcodes are the default OPCODE_MAP's, the spec's own choice (D2, log 12). -/
def Obligations.RegisterStepsWrapAndSetNZ : Prop :=
  StepsReg .inw 0x4F .w (fun n => n + 1) ∧ StepsReg .dew 0x50 .w (fun n => n + 255) ∧
  StepsReg .inx 0x51 .x (fun n => n + 1) ∧ StepsReg .dex 0x52 .x (fun n => n + 255)

/-! ### The host: startup, memory, outputs -/

/-- The start command with a valid header at an address in program memory, from any state but Running: every register as
R122 says, START, END = START + 3 + length, pc = START + 3, Running, memory unchanged; an absent address is DEFAULT_START
(41_cycle.md R121 to R125). -/
def Obligations.StartWithAValidHeaderRuns : Prop :=
  ∀ (s : State) (given : Option Word) (addr : Word) (rest : List HostEvent),
    s.host.events = .start given :: rest → given.getD s.config.defaultStart = addr → s.status ≠ .running →
    s.config.progLo.toNat ≤ addr.toNat → addr.toNat ≤ s.config.progHi.toNat → addr.toNat + 2 < 65536 →
    s.byteAt addr.toNat = 0x7F →
    step s = .next
      { s with
        a := 0, w := 0, x := 0, y := 0, z := 0, flags := 0x24, sp := s.config.spTop, fault := none,
        startAddr := addr, status := .running, pc := addr + 3,
        endAddr := addr.toNat + 3 +
          (256 * (s.byteAt (addr.toNat + 1)).toNat + (s.byteAt (addr.toNat + 2)).toNat),
        host := { s.host with events := rest } }

/-- A start command that fails is Faulted with the registers at their reset values, pc 0 and memory unchanged: SegmentFault
outside program memory, then AddressFault(0x10000) for a header past the top, then InvalidHeader (41_cycle.md R123, R124,
60_exceptions.md R242, R245). -/
def Obligations.StartFaultsInOrder : Prop :=
  ∀ (s : State) (addr : Word), s.status ≠ .running →
    (addr.toNat < s.config.progLo.toNat ∨ s.config.progHi.toNat < addr.toNat →
      startCommand (some addr) s = (s.resetForStart addr).asFaulted .segmentFault 1 (.start addr)) ∧
    (s.config.progLo.toNat ≤ addr.toNat → addr.toNat ≤ s.config.progHi.toNat →
      (0xFFFE ≤ addr.toNat →
        startCommand (some addr) s = (s.resetForStart addr).asFaulted .addressFault 5 (.address 0x10000)) ∧
      (addr.toNat < 0xFFFE → s.byteAt addr.toNat ≠ 0x7F →
        startCommand (some addr) s =
          (s.resetForStart addr).asFaulted .invalidHeader 2 (.marker (s.byteAt addr.toNat))))

/-- A start command or a host memory operation that arrives while Running has no effect (41_cycle.md R120, 20_memory.md R67). -/
def Obligations.RunningCoreIgnoresStartAndMemoryOperations : Prop :=
  ∀ (s : State) (e : HostEvent) (rest : List HostEvent), s.status = .running → s.host.events = e :: rest →
    e ≠ .quiet → (∀ pcs, e ≠ .suspendAt pcs) →
    step s = .next { s with host := { s.host with events := rest } }

/-- The host's load stores its bytes at consecutive addresses and nothing else, or, where a byte would fall outside the space,
is refused whole; clear sets every cell to 0 (20_memory.md R67). -/
def Obligations.HostLoadAndClearSetMemory : Prop :=
  ∀ s : State, s.status ≠ .running → s.mem.wf = true →
    (∀ (bytes : List Byte) (addr : Nat), addr + bytes.length ≤ 65536 →
      ∃ m : Memory, hostLoad bytes addr s = { s with mem := m } ∧ m.wf = true ∧
        ∀ n, m.read n = if addr ≤ n ∧ n < addr + bytes.length then bytes.getD (n - addr) 0 else s.byteAt n) ∧
    (∀ (bytes : List Byte) (addr : Nat), bytes ≠ [] → 65536 < addr + bytes.length → hostLoad bytes addr s = s) ∧
    ∃ m : Memory, hostClear s = { s with mem := m } ∧ ∀ n, m.read n = 0

/-- After each completed instruction the host is told the new pc, and after a fault its kind and nothing else
(41_cycle.md R134, 60_exceptions.md R243). -/
def Obligations.HostIsToldPcOrFaultKind : Prop :=
  ∀ s t : State, s.AtInstruction → step s = .next t →
    (t.status = .running → stepReport s = some (.completed t.pc)) ∧
    (t.status = .faulted → ∃ f, t.fault = some f ∧ stepReport s = some (.faulted f.kind))
end

