-- ==== Sys2Proof/Laws/Assembler.lean ====
section
/-! SUPPORT. What the assembler's lookup can answer (30_encoding.md R81, R92). -/

namespace Sys2Proof.Machine

/-- Every form stands among the assembler's forms (30_encoding.md R81). -/
theorem mem_forms (f : Form) : f ∈ forms := by
  cases f <;> decide

/-- The form found for a mnemonic and a mode has both. -/
theorem formOf_eq_some {mnemonic : List Char} {mode : Mode} {f : Form} (h : formOf mnemonic mode = some f) :
    f.mnemonic.toList = mnemonic ∧ f.mode = mode := by
  have := List.find?_some h
  simpa only [Bool.and_eq_true, beq_iff_eq] using this

/-- An opcode the assembler answers selects, under the map, a form of the mnemonic in the mode (30_encoding.md R80, R92). -/
theorem opcodeFor_eq_ok {m : OpcodeMap} {mnemonic : List Char} {mode : Mode} {op : Byte}
    (h : opcodeFor m mnemonic mode = .ok op) :
    ∃ f, f.mnemonic.toList = mnemonic ∧ f.mode = mode ∧ m.lookup op = some f := by
  unfold opcodeFor at h
  split at h
  · cases h
    rename_i hop
    obtain ⟨f, hf, ho⟩ := Option.bind_eq_some_iff.1 hop
    exact ⟨f, (formOf_eq_some hf).1, (formOf_eq_some hf).2, OpcodeMap.lookup_opcodeOf ho⟩
  · cases h

/-- The only error of the lookup is noEncoding (30_encoding.md R92, R98). -/
theorem opcodeFor_eq_error {m : OpcodeMap} {mnemonic : List Char} {mode : Mode} {e : CompileError}
    (h : opcodeFor m mnemonic mode = .error e) : e = .noEncoding ∧ (formOf mnemonic mode).bind m.opcodeOf = none := by
  unfold opcodeFor at h
  split at h
  · cases h
  · cases h
    exact ⟨rfl, ‹_›⟩

end Sys2Proof.Machine
end

