-- ==== Sys2Proof/Laws/Controller.lean ====
section
/-! SUPPORT. What the fetch, the header read and a step can do, that every memory operation of the host keeps the canonical
form of memory, and that reset's memory has it. -/

namespace Sys2Proof.Machine

/-- Reset's memory lists nothing, and so is in canonical form. -/
theorem State.reset_mem_wf : State.reset.mem.wf = true := rfl

/-- Power-on memory is in canonical form, under any configuration. -/
theorem State.powerOn_mem_wf (c : Config) : (State.powerOn c).mem.wf = true := rfl

/-- A fetch inside the space reads the three bytes at pc and changes nothing (41_cycle.md R128). -/
theorem fetch_inside {s : State} (h : s.pc.toNat + 2 < memSize) :
    fetch s = .done (s.byteAt s.pc.toNat, s.byteAt (s.pc.toNat + 1), s.byteAt (s.pc.toNat + 2)) s := by
  simp only [fetch, memRead_word, Res.bind_done, memRead_inside h, memRead_inside (show s.pc.toNat + 1 < memSize by omega)]

/-- A fetch past the top raises AddressFault(0x10000), whichever byte is the first outside (41_cycle.md R128). -/
theorem fetch_outside {s : State} (h : memSize ≤ s.pc.toNat + 2) :
    fetch s = .raised (s.enterFault (.address memSize)) := by
  have hpc : s.pc.toNat < memSize := word_lt_memSize s.pc
  simp only [fetch, memRead_word, Res.bind_done]
  by_cases h1 : s.pc.toNat + 1 < memSize
  · rw [memRead_inside h1, Res.bind_done, show s.pc.toNat + 2 = memSize by omega, memRead_outside (Nat.le_refl _)]; rfl
  · rw [show s.pc.toNat + 1 = memSize by omega, memRead_outside (Nat.le_refl _)]; rfl

/-- A step of a core at an instruction is that instruction's fetch, decode and execute (41_cycle.md R126, R127, R138). -/
theorem step_atInstruction {s : State} (h : s.AtInstruction) : step s = instructionStep s := by
  obtain ⟨he, hr, hl, hs⟩ := h
  simp [step, machineStep, he, controllerStep, hr, State.loopTest, hl, State.suspended, hs]

/-- The host's load keeps the canonical form. -/
theorem hostLoad_mem_wf {s : State} (h : s.mem.wf = true) (bytes : List Byte) (addr : Nat) :
    (hostLoad bytes addr s).mem.wf = true := by
  unfold hostLoad
  split
  · rename_i hc
    simp only [Bool.and_eq_true, fitsSpace, Bool.or_eq_true, List.isEmpty_iff, decide_eq_true_eq] at hc
    rcases hc.2 with rfl | hfit
    · exact h
    · exact Memory.wf_load h addr bytes hfit
  · exact h

/-- The host's clear keeps the canonical form. -/
theorem hostClear_mem_wf {s : State} (h : s.mem.wf = true) : (hostClear s).mem.wf = true := by
  unfold hostClear
  split
  · rfl
  · exact h

/-- The host's indexed write keeps the canonical form. -/
theorem hostWrite_mem_wf {s : State} (h : s.mem.wf = true) (addr : Nat) (v : Byte) :
    (hostWrite addr v s).mem.wf = true := by
  unfold hostWrite
  split
  · rename_i hc
    simp only [Bool.and_eq_true, decide_eq_true_eq] at hc
    exact Memory.wf_write h hc.2 v
  · exact h

/-- `MemWrite` keeps the canonical form (20_memory.md R48). -/
theorem memWrite_mem_wf {s t : State} {addr : Nat} {v : Byte} (h : s.mem.wf = true)
    (hw : memWrite addr v s = .done () t) : t.mem.wf = true := by
  by_cases ha : addr < memSize
  · rw [memWrite_inside ha] at hw
    cases hw
    exact Memory.wf_write h ha v
  · rw [memWrite_outside (by omega)] at hw
    cases hw

/-- What placing a word in memory leaves is in canonical form, wherever it is placed (log 10). -/
theorem State.withFetchWord_mem_wf {s : State} (h : s.mem.wf = true) (nbits w : Nat) :
    (s.withFetchWord nbits w).mem.wf = true := by
  unfold State.withFetchWord State.place
  split
  · rename_i hc
    simp only [State.canFetchAtPc, Bool.and_eq_true, decide_eq_true_eq] at hc
    exact Memory.wf_load h _ _ hc.2
  · exact Memory.wf_load h _ _ (show loadAddr + 6 ≤ memSize by decide)

end Sys2Proof.Machine
end

