-- ==== Sys2Proof/Laws/Operands.lean ====
section
/-! SUPPORT. For each shared execute part, once, what it leaves when its operand is read: the instruction's own address as
base, and the state with the writes in order. -/

namespace Sys2Proof.Machine

@[simp] theorem fallThrough_eq (s : State) : fallThrough s = .done s.pc s := rfl

@[simp] theorem loadInto_done (r : Reg) (v : Byte) (s : State) :
    loadInto r (.done v s) = .done s.pc ((s.setReg r v).setNZ v) := by
  simp [loadInto]

@[simp] theorem loadInto_raised (r : Reg) (s : State) : loadInto r (.raised s) = .raised s := rfl

@[simp] theorem storeFrom_eq (r : Reg) (ea : Word) (s : State) :
    storeFrom r ea s = .done s.pc (s.putByte ea.toNat (s.reg r)) := by
  rw [storeFrom, memWrite_word]; rfl

@[simp] theorem compareWith_done (r : Reg) (v : Byte) (s : State) :
    compareWith r (.done v s) = .done s.pc (s.setCompare (cmp8 (s.reg r) v)) := rfl

@[simp] theorem bitwiseIntoA_done (f : Byte → Byte → Byte) (v : Byte) (s : State) :
    bitwiseIntoA f (.done v s) = .done s.pc ((s.setReg .a (f s.a v)).setNZ (f s.a v)) := rfl

@[simp] theorem arithIntoA_done (f : Byte → Byte → Bool → AddResult) (v : Byte) (s : State) :
    arithIntoA f (.done v s) = .done s.pc ((s.setReg .a (f s.a v s.flagC).r).setArith (f s.a v s.flagC)) := rfl

@[simp] theorem rotateCell_eq (f : Byte → Bool → Byte × Bool) (ea : Word) (s : State) :
    rotateCell f ea s = .done s.pc
      ((s.putByte ea.toNat (f (s.byteAt ea.toNat) s.flagC).1).setShift (f (s.byteAt ea.toNat) s.flagC)) := by
  rw [rotateCell, memRead_word, Res.bind_done, memWrite_word]; rfl

@[simp] theorem rotateA_eq (f : Byte → Bool → Byte × Bool) (s : State) :
    rotateA f s = .done s.pc ((s.setReg .a (f s.a s.flagC).1).setRotateAcc (f s.a s.flagC)) := rfl

@[simp] theorem shiftA_eq (f : Byte → Byte × Bool) (s : State) :
    shiftA f s = .done s.pc ((s.setReg .a (f s.a).1).setShift (f s.a)) := rfl

@[simp] theorem stepCell_eq (f : Byte → Byte) (ea : Word) (s : State) :
    stepCell f ea s =
      .done s.pc ((s.putByte ea.toNat (f (s.byteAt ea.toNat))).setNZ (f (s.byteAt ea.toNat))) := by
  rw [stepCell, memRead_word, Res.bind_done, memWrite_word]; rfl

@[simp] theorem stepReg_eq (f : Byte → Byte) (r : Reg) (s : State) :
    stepReg f r s = .done s.pc ((s.setReg r (f (s.reg r))).setNZ (f (s.reg r))) := by
  simp [stepReg]

/-- A branch leaves the state as it is; only base tells whether it was taken (43_control.md R164). -/
theorem branchIf_eq (cond : Bool) (disp : Byte) (s : State) :
    branchIf cond disp s = .done (if cond then s.pc + sext16 disp - instrWidth else s.pc) s := by
  cases cond <;> rfl

end Sys2Proof.Machine
end

