-- ==== Sys2Proof/Tests/Slice0.lean ====
section
/-! SUPPORT. Tests: the smoke tests of WellFormed, the decoding of every form from words written out from 30_encoding.md R84, one
step of every instruction and every fault (expected values from 95_test_vectors.md, or by hand from the rule named), and for
each statement with hypotheses a state and operands that meet them. -/

namespace Sys2Proof.Tests

open Sys2Proof Sys2Proof.Machine

/-! ### Helpers -/

/-- A running core at 0x4003 with registers as reset leaves them and nothing in memory. -/
def start : State := { State.reset with status := .running, startAddr := 0x4000, endAddr := 0x4100, pc := 0x4003 }

/-- The state after a step from s, or s itself if the step stops (which no step does). -/
def next (s : State) : State :=
  match step s with
  | .next t => t
  | _ => s

/-- The state after one step of the instruction whose 24-bit word is w (30_encoding.md R84). -/
def run (w : Nat) (s : State) : State := next (s.withFetchWord 24 w)

/-- The default configuration with another stack capacity (95_test_vectors.md 1.7). -/
def capacity (n : Byte) : Config := { defaultConfig with stackCapacity := n }

/-- What FAULT holds. -/
def faultOf (s : State) : Option (Fault × Nat × Word × FaultInfo) := s.fault.map fun f => (f.kind, f.code, f.pc, f.info)

/-! ### WellFormed refuses an ill-formed term, one for each check -/

theorem test_wf_default : defaultConfig.wf = true ∧ defaultOpcodeMap.wf = true := by decide

/-- No opcode selects LDA Immediate under this map (30_encoding.md R92). -/
theorem test_wf_instruction_without_opcode : Instr.wellFormed [(0, .nop)] (.ldaImm 5) = false := by decide

/-- An entry behind another entry of its opcode selects nothing (30_encoding.md R80). -/
theorem test_wf_shadowed_opcode : Instr.wellFormed [(4, .nop), (4, .ldaImm)] (.ldaImm 5) = false := by decide

/-- 30_encoding.md R83. -/
theorem test_wf_map_without_nop :
    OpcodeMap.wf (defaultOpcodeMap.filter fun e => e.1 != 0) = false := by decide

/-- 30_encoding.md R83. -/
theorem test_wf_map_without_ldaImm :
    OpcodeMap.wf (defaultOpcodeMap.filter fun e => e.1 != 4) = false := by decide

/-- 30_encoding.md R83. -/
theorem test_wf_map_without_staIdx :
    OpcodeMap.wf (defaultOpcodeMap.filter fun e => e.1 != 18) = false := by decide

/-- 30_encoding.md R83. -/
theorem test_wf_map_without_addImm :
    OpcodeMap.wf (defaultOpcodeMap.filter fun e => e.1 != 71) = false := by decide

/-- 00_scope.md R6. -/
theorem test_wf_config_map : Config.wf { defaultConfig with opcodeMap := [(0, .nop)] } = false := by decide

/-- 00_scope.md R6. -/
theorem test_wf_config_program_bounds : Config.wf { defaultConfig with progHi := 0x3FFF } = false := by decide

/-- 00_scope.md R6. -/
theorem test_wf_config_default_start :
    Config.wf { defaultConfig with defaultStart := 0x4001 } = false := by decide

/-- 00_scope.md R6. -/
theorem test_wf_config_stack_past_the_top :
    Config.wf { defaultConfig with stackBase := 0xFF01 } = false := by decide

/-- 00_scope.md R6. -/
theorem test_wf_config_capacity_zero :
    Config.wf { defaultConfig with stackCapacity := 0 } = false := by decide

/-- 00_scope.md R6. -/
theorem test_wf_config_capacity_above_top :
    Config.wf { defaultConfig with spTop := 0x80 } = false := by decide

/-- 00_scope.md R6. -/
theorem test_wf_config_empty_stack :
    Config.wf { defaultConfig with spTop := 0, stackCapacity := 0 } = false := by decide

/-! ### Decoding: every form, from words written out from 30_encoding.md R72 and R84; bytes a mode ignores are not 0 -/

theorem test_decode_noop :
    [0x00ABCD].map (decodeTableWord 24) =
    [some .nop] := by decide

theorem test_decode_move :
    [0x010103, 0x010504, 0x010202].map (decodeTableWord 24) =
    [some (.mov .a .x), some (.mov .z .y), some (.mov .w .w)] := by decide

theorem test_decode_loads :
    [0x021234, 0x031256, 0x048912, 0x051234, 0x061256, 0x078912, 0x081234, 0x091256, 0x0A8912, 0x0B1234, 0x0C1256,
     0x0D8912, 0x0E1234, 0x0F1256, 0x108912].map (decodeTableWord 24) =
    [some (.ldaAbs 0x1234), some (.ldaIdx 0x56), some (.ldaImm 0x89), some (.ldwAbs 0x1234), some (.ldwIdx 0x56),
     some (.ldwImm 0x89), some (.ldxAbs 0x1234), some (.ldxIdx 0x56), some (.ldxImm 0x89), some (.ldyAbs 0x1234),
     some (.ldyIdx 0x56), some (.ldyImm 0x89), some (.ldzAbs 0x1234), some (.ldzIdx 0x56), some (.ldzImm 0x89)] := by
  decide

theorem test_decode_stores :
    [0x111234, 0x121256, 0x131234, 0x141256, 0x151234, 0x161256, 0x171234, 0x181256, 0x191234, 0x1A1256].map (decodeTableWord 24) =
    [some (.staAbs 0x1234), some (.staIdx 0x56), some (.stwAbs 0x1234), some (.stwIdx 0x56), some (.stxAbs 0x1234),
     some (.stxIdx 0x56), some (.styAbs 0x1234), some (.styIdx 0x56), some (.stzAbs 0x1234), some (.stzIdx 0x56)] := by
  decide

theorem test_decode_control :
    [0x1B4009, 0x1C0300, 0x1D4010, 0x1E1234, 0x1FFA12, 0x200912, 0x21FA12, 0x227F12, 0x238012, 0x24FC12].map (decodeTableWord 24) =
    [some (.jmpAbs 0x4009), some (.jmpInd 0x0300), some (.jfn 0x4010), some .ret, some (.bcc 0xFA),
     some (.bcs 0x09), some (.bne 0xFA), some (.beq 0x7F), some (.brp 0x80), some (.brn 0xFC)] := by decide

theorem test_decode_flags_stack :
    [0x251234, 0x261234, 0x271234, 0x281234, 0x291234, 0x2A1234, 0x2B1234].map (decodeTableWord 24) =
    [some .clc, some .sec, some .clo, some .phs, some .pos, some .pha, some .poa] := by decide

theorem test_decode_compare :
    [0x2C1234, 0x2D1256, 0x2E8912, 0x2F1234, 0x301256, 0x318912, 0x321234, 0x331256, 0x348912].map (decodeTableWord 24) =
    [some (.cmpAbs 0x1234), some (.cmpIdx 0x56), some (.cmpImm 0x89), some (.cpwAbs 0x1234), some (.cpwIdx 0x56),
     some (.cpwImm 0x89), some (.cpxAbs 0x1234), some (.cpxIdx 0x56), some (.cpxImm 0x89)] := by decide

theorem test_decode_bitwise :
    [0x351234, 0x361256, 0x378912, 0x381234, 0x391256, 0x3A8912, 0x3B1234, 0x3C1256, 0x3D8912].map (decodeTableWord 24) =
    [some (.andAbs 0x1234), some (.andIdx 0x56), some (.andImm 0x89), some (.oraAbs 0x1234), some (.oraIdx 0x56),
     some (.oraImm 0x89), some (.xorAbs 0x1234), some (.xorIdx 0x56), some (.xorImm 0x89)] := by decide

theorem test_decode_rotate_shift :
    [0x3E1234, 0x3F1234, 0x401234, 0x411234, 0x421234, 0x431234].map (decodeTableWord 24) =
    [some (.rolAbs 0x1234), some .rolAcc, some (.rorAbs 0x1234), some .rorAcc, some .bsr, some .bsl] := by
  decide

theorem test_decode_arith :
    [0x451234, 0x461256, 0x478912, 0x481234, 0x491256, 0x4A8912].map (decodeTableWord 24) =
    [some (.addAbs 0x1234), some (.addIdx 0x56), some (.addImm 0x89), some (.subAbs 0x1234), some (.subIdx 0x56),
     some (.subImm 0x89)] := by decide

theorem test_decode_inc_dec :
    [0x4B1234, 0x4C1256, 0x4D1234, 0x4E1256, 0x4F1234, 0x501234, 0x511234, 0x521234].map (decodeTableWord 24) =
    [some (.incAbs 0x1234), some (.incIdx 0x56), some (.decAbs 0x1234), some (.decIdx 0x56), some .inw, some .dew,
     some .inx, some .dex] := by decide

/-- Opcodes 68, 83 and 255 have no entry (30_encoding.md R85). -/
theorem test_decode_unmapped :
    [0x440000, 0x530000, 0xFF0000].map (decodeTableWord 24) = [none, none, none] := by decide

/-- MOV indices outside 1..5 (30_encoding.md R86). -/
theorem test_decode_mov_indices :
    [0x010003, 0x010106, 0x010600, 0x010001].map (decodeTableWord 24) = [none, none, none, none] := by decide

theorem test_decode_rejects_by_name :
    decode defaultOpcodeMap 0x44 1 2 = .error (.unmappedOpcode 0x44) ∧
      decode defaultOpcodeMap 0x01 0 3 = .error (.movIndex 0x01 0 3) ∧
      decodeBytes defaultOpcodeMap [0x04, 0x05] = .error .truncated := ⟨rfl, rfl, rfl⟩

/-- 95_test_vectors.md 1.6 (90_conflicts.md C2). -/
theorem test_encode_scenario_a :
    [Instr.ldaImm 5, .staIdx 0, .addImm 3, .staIdx 0].map (encode defaultOpcodeMap) =
    [some [0x04, 5, 0], some [0x12, 0, 0], some [0x47, 3, 0], some [0x12, 0, 0]] := by decide

/-- 30_encoding.md R97. -/
theorem test_encode_words :
    [Instr.staAbs 0x0200, .bne 0xFA, .jmpInd 0x0300, .mov .a .x, .rolAcc].map (encode defaultOpcodeMap) =
    [some [0x11, 2, 0], some [0x21, 0xFA, 0], some [0x1C, 3, 0], some [0x01, 1, 3], some [0x3F, 0, 0]] := by
  decide

/-! ### The ALU (95_test_vectors.md 1.3, 2.1, 2.2, 2.3) -/

theorem test_add8 :
    [add8 0x7F 0x01 false, add8 0xFF 0xFF true, add8 0x80 0x80 false, add8 0x0F 0x01 true] =
    [⟨0x80, false, true⟩, ⟨0xFF, true, false⟩, ⟨0x00, true, true⟩, ⟨0x11, false, false⟩] := by decide

theorem test_sub8 :
    [sub8 0x03 0x05 true, sub8 0x05 0x05 false, sub8 0x80 0x01 true, sub8 0x00 0x80 true] =
    [⟨0xFE, false, false⟩, ⟨0xFF, false, false⟩, ⟨0x7F, true, true⟩, ⟨0x80, false, true⟩] := by decide

theorem test_rotates :
    [rol8 0xAA true, rol8 0x01 true] = [(0x55, true), (0x03, false)] ∧
    [ror8 0xAA true, ror8 0x55 false] = [(0xD5, false), (0x2A, true)] := by decide

theorem test_eight_rotates :
    rotateTimes rol8 8 (0xB4, true) = (0xDA, false) ∧ rotateTimes rol8 9 (0xB4, true) = (0xB4, true) := by
  decide

/-! ### One step of each instruction (95_test_vectors.md 2.4 to 2.10; where it has no vector, by hand from the rule) -/

theorem test_nop :
    (run 0x00ABCD start).pc = 0x4006 ∧
    (run 0x00ABCD start).flags = 0x24 := by decide

theorem test_mov :
    (run 0x010103 { start with a := 0x80 }).x = 0x80 ∧
    (run 0x010103 { start with a := 0x80 }).flags = 0xA4 := by decide

theorem test_mov_same :
    (run 0x010404 { start with x := 1 }).y = 0 ∧
    (run 0x010404 { start with x := 1 }).flags = 0x26 := by decide

theorem test_ldaAbs :
    (run 0x021234 { start with mem := [(0x1234, 0x7F)] }).a = 0x7F ∧
    (run 0x021234 { start with mem := [(0x1234, 0x7F)] }).flags = 0x24 := by decide

theorem test_ldaIdx :
    (run 0x0312FF { start with w := 2, mem := [(0x0001, 0x99)] }).a = 0x99 ∧
    (run 0x0312FF { start with w := 2, mem := [(0x0001, 0x99)] }).flags = 0xA4 := by decide

theorem test_ldaImm :
    (run 0x048000 start).a = 0x80 ∧
    (run 0x048000 start).flags = 0xA4 := by decide

theorem test_ldwAbs :
    (run 0x051234 { start with mem := [(0x1234, 0x80)] }).w = 0x80 ∧
    (run 0x051234 { start with mem := [(0x1234, 0x80)] }).flags = 0xA4 := by decide

theorem test_ldwIdx :
    (run 0x060010 { start with w := 5 }).w = 0 ∧
    (run 0x060010 { start with w := 5 }).flags = 0x26 := by decide

theorem test_ldwImm :
    (run 0x070300 { start with flags := 0xA6 }).w = 3 ∧
    (run 0x070300 { start with flags := 0xA6 }).flags = 0x24 := by decide

theorem test_ldxAbs :
    (run 0x080200 { start with mem := [(0x0002, 9), (0x0200, 1)] }).x = 1 ∧
    (run 0x080200 { start with mem := [(0x0002, 9), (0x0200, 1)] }).flags = 0x24 := by decide

theorem test_ldxIdx :
    (run 0x090010 { start with w := 1, mem := [(0x0010, 2), (0x0011, 0x80)] }).x = 0x80 ∧
    (run 0x090010 { start with w := 1, mem := [(0x0010, 2), (0x0011, 0x80)] }).flags = 0xA4 := by decide

theorem test_ldxImm :
    (run 0x0A0500 start).x = 5 ∧
    (run 0x0A0500 start).flags = 0x24 := by decide

theorem test_ldyAbs :
    (run 0x0B0300 { start with mem := [(0x0003, 9), (0x0300, 0x81)] }).y = 0x81 ∧
    (run 0x0B0300 { start with mem := [(0x0003, 9), (0x0300, 0x81)] }).flags = 0xA4 := by decide

theorem test_ldyIdx :
    (run 0x0C00FF { start with w := 1, mem := [(0x0100, 7)] }).y = 0 ∧
    (run 0x0C00FF { start with w := 1, mem := [(0x0100, 7)] }).flags = 0x26 := by decide

theorem test_ldyImm :
    (run 0x0D7F00 start).y = 0x7F ∧
    (run 0x0D7F00 start).flags = 0x24 := by decide

theorem test_ldzAbs :
    (run 0x0E0300 { start with mem := [(0x0300, 0x42)] }).z = 0x42 ∧
    (run 0x0E0300 { start with mem := [(0x0300, 0x42)] }).flags = 0x24 := by decide

theorem test_ldzIdx :
    (run 0x0F00F0 { start with w := 0x11, mem := [(0x0001, 0xC0)] }).z = 0xC0 ∧
    (run 0x0F00F0 { start with w := 0x11, mem := [(0x0001, 0xC0)] }).flags = 0xA4 := by decide

theorem test_ldzImm :
    (run 0x100012 { start with z := 5 }).z = 0 ∧
    (run 0x100012 { start with z := 5 }).flags = 0x26 := by decide

theorem test_staAbs :
    (run 0x110081 { start with a := 0x0F }).byteAt 0x0081 = 0x0F ∧
    (run 0x110081 { start with a := 0x0F }).flags = 0x24 := by decide

theorem test_staIdx :
    (run 0x120030 { start with a := 0xAA, w := 2 }).byteAt 0x0032 = 0xAA ∧
    (run 0x120030 { start with a := 0xAA, w := 2 }).flags = 0x24 := by decide

theorem test_stwAbs :
    (run 0x130200 { start with w := 7 }).byteAt 0x0200 = 7 ∧
    (run 0x130200 { start with w := 7 }).byteAt 0x0002 = 0 := by decide

theorem test_stwIdx :
    (run 0x140010 { start with w := 5 }).byteAt 0x0015 = 5 ∧
    (run 0x140010 { start with w := 5 }).w = 5 := by decide

theorem test_stxAbs :
    (run 0x150080 { start with x := 5 }).byteAt 0x0080 = 5 ∧
    (run 0x150080 { start with x := 5 }).flags = 0x24 := by decide

theorem test_stxIdx :
    (run 0x1600FF { start with x := 9, w := 2 }).byteAt 0x0001 = 9 ∧
    (run 0x1600FF { start with x := 9, w := 2 }).byteAt 0x0101 = 0 := by decide

theorem test_styAbs :
    (run 0x17FFFF { start with y := 1 }).byteAt 0xFFFF = 1 ∧
    (run 0x17FFFF { start with y := 1 }).flags = 0x24 := by decide

theorem test_styIdx :
    (run 0x180020 { start with y := 0x80, w := 1 }).byteAt 0x0021 = 0x80 ∧
    (run 0x180020 { start with y := 0x80, w := 1 }).flags = 0x24 := by decide

theorem test_stzAbs :
    (run 0x190120 { start with z := 6 }).byteAt 0x0120 = 6 ∧
    (run 0x190120 { start with z := 6 }).flags = 0x24 := by decide

theorem test_stzIdx :
    (run 0x1A0001 { start with w := 0xFF, mem := [(0x0000, 0x55)] }).byteAt 0x0000 = 0 ∧
    (run 0x1A0001 { start with w := 0xFF, mem := [(0x0000, 0x55)] }).mem = [(0x4003, 0x1A), (0x4005, 0x01)] := by
  decide

theorem test_jmpAbs :
    (run 0x1B4009 start).pc = 0x400C ∧
    (run 0x1B4009 start).flags = 0x24 := by decide

theorem test_jmpAbs_wraps : (run 0x1BFFFE start).pc = 0x0001 := by decide

theorem test_jmpInd :
    (run 0x1C0300 { start with mem := [(0x0300, 0x40), (0x0301, 0x20)] }).pc = 0x4023 := by decide

theorem test_jmpInd_at_the_top :
    (run 0x1CFFFF start).pc = 0x4003 ∧
    (run 0x1CFFFF start).fault = some ⟨.addressFault, 5, 0x4003, .address 0x10000⟩ := by decide

theorem test_jfn :
    (run 0x1D4010 start).pc = 0x4013 ∧
    (run 0x1D4010 start).mem = [(0x01FE, 0x03), (0x01FF, 0x40), (0x4003, 0x1D), (0x4004, 0x40), (0x4005, 0x10)] := by
  decide

theorem test_jfn_half :
    (run 0x1D4000 { start with config := capacity 3, sp := 0xFD }).sp = 0xFC ∧
    (run 0x1D4000 { start with config := capacity 3, sp := 0xFD }).fault = some ⟨.stackFault, 4, 0x4003, .push⟩ := by
  decide

theorem test_ret :
    (run 0x1E0000 { start with pc := 0x4013, sp := 0xFD, mem := [(0x01FE, 0x03), (0x01FF, 0x40)] }).pc = 0x4006 ∧
    (run 0x1E0000 { start with pc := 0x4013, sp := 0xFD, mem := [(0x01FE, 0x03), (0x01FF, 0x40)] }).mem = [(0x4013, 0x1E)] := by
  decide

theorem test_ret_half :
    (run 0x1E0000 { start with sp := 0xFE, mem := [(0x01FF, 0x55)] }).sp = 0xFF ∧
    (run 0x1E0000 { start with sp := 0xFE, mem := [(0x01FF, 0x55)] }).fault = some ⟨.stackFault, 4, 0x4003, .pop⟩ := by
  decide

theorem test_bcc : (run 0x1FFA00 { start with pc := 0x4009 }).pc = 0x4003 := by decide

theorem test_bcc_not_taken :
    (run 0x1FFA00 { start with pc := 0x4009, flags := 0x25 }).pc = 0x400C := by decide

theorem test_bcs : (run 0x200900 { start with pc := 0x4010, flags := 0x25 }).pc = 0x4019 := by decide

theorem test_bne : (run 0x21FA00 { start with pc := 0x400C }).pc = 0x4006 := by decide

theorem test_beq : (run 0x227F00 { start with flags := 0x26 }).pc = 0x4082 := by decide

theorem test_beq_not_taken : (run 0x227F00 start).pc = 0x4006 := by decide

theorem test_brp : (run 0x238000 { start with pc := 0x4006 }).pc = 0x3F86 := by decide

theorem test_brn : (run 0x24FC00 { start with pc := 0x0002, flags := 0xA4 }).pc = 0xFFFE := by decide

theorem test_brn_not_taken : (run 0x240000 start).pc = 0x4006 := by decide

theorem test_clc : (run 0x250000 { start with flags := 0x25 }).flags = 0x24 := by decide

theorem test_sec : (run 0x260000 start).flags = 0x25 := by decide

theorem test_clo : (run 0x270000 { start with flags := 0x64 }).flags = 0x24 := by decide

theorem test_phs :
    (run 0x280000 { start with flags := 0xE7 }).byteAt 0x01FF = 0xE7 ∧
    (run 0x280000 { start with flags := 0xE7 }).sp = 0xFE := by decide

theorem test_pos :
    (run 0x290000 { start with sp := 0xFE, mem := [(0x01FF, 0xC3)] }).flags = 0xE3 ∧
    (run 0x290000 { start with sp := 0xFE, mem := [(0x01FF, 0xC3)] }).mem = [(0x4003, 0x29)] := by decide

theorem test_pos_zero :
    (run 0x290000 { start with sp := 0xFE }).flags = 0x20 ∧
    (run 0x290000 { start with sp := 0xFE }).sp = 0xFF := by decide

theorem test_pha :
    (run 0x2A0000 { start with a := 5 }).byteAt 0x01FF = 5 ∧
    (run 0x2A0000 { start with a := 5 }).sp = 0xFE := by decide

theorem test_pha_full :
    (run 0x2A0000 { start with sp := 0x00, a := 5 }).fault = some ⟨.stackFault, 4, 0x4003, .push⟩ ∧
    (run 0x2A0000 { start with sp := 0x00, a := 5 }).byteAt 0x0100 = 0 := by decide

theorem test_poa :
    (run 0x2B0000 { start with sp := 0xFE, mem := [(0x01FF, 0x80)] }).a = 0x80 ∧
    (run 0x2B0000 { start with sp := 0xFE, mem := [(0x01FF, 0x80)] }).flags = 0xA4 := by decide

theorem test_poa_empty :
    (run 0x2B0000 start).fault = some ⟨.stackFault, 4, 0x4003, .pop⟩ ∧
    (run 0x2B0000 start).sp = 0xFF := by decide

theorem test_cmpAbs :
    (run 0x2C0200 { start with a := 3, mem := [(0x0200, 5)] }).flags = 0xA4 ∧
    (run 0x2C0200 { start with a := 3, mem := [(0x0200, 5)] }).a = 3 := by decide

theorem test_cmpIdx :
    (run 0x2D0010 { start with a := 5, w := 2, mem := [(0x0012, 5)] }).flags = 0x27 := by decide

theorem test_cmpImm : (run 0x2E7F00 { start with a := 0x80 }).flags = 0x25 := by decide

theorem test_cpwAbs :
    (run 0x2F0200 { start with w := 0x10, mem := [(0x0200, 0x20)] }).flags = 0xA4 := by decide

theorem test_cpwIdx : (run 0x300010 { start with w := 2, mem := [(0x0012, 2)] }).flags = 0x27 := by decide

theorem test_cpwImm : (run 0x312000 { start with w := 0x10, flags := 0x67 }).flags = 0xE4 := by decide

theorem test_cpxAbs : (run 0x320200 { start with mem := [(0x0200, 1)] }).flags = 0xA4 := by decide

theorem test_cpxIdx :
    (run 0x330010 { start with x := 0xFF, w := 1, mem := [(0x0011, 0xFE)] }).flags = 0x25 := by decide

theorem test_cpxImm : (run 0x34FF00 { start with x := 0xFF }).flags = 0x27 := by decide

theorem test_andAbs :
    (run 0x350030 { start with a := 0xF0, mem := [(0x0030, 0x3C)] }).a = 0x30 ∧
    (run 0x350030 { start with a := 0xF0, mem := [(0x0030, 0x3C)] }).flags = 0x24 := by decide

theorem test_andIdx :
    (run 0x360010 { start with a := 0xF0, w := 3, mem := [(0x0013, 0x0F)] }).a = 0 ∧
    (run 0x360010 { start with a := 0xF0, w := 3, mem := [(0x0013, 0x0F)] }).flags = 0x26 := by decide

theorem test_andImm :
    (run 0x373C00 { start with a := 0xF0, flags := 0x65 }).a = 0x30 ∧
    (run 0x373C00 { start with a := 0xF0, flags := 0x65 }).flags = 0x65 := by decide

theorem test_oraAbs :
    (run 0x380030 { start with a := 0x0F, mem := [(0x0030, 0x80)] }).a = 0x8F ∧
    (run 0x380030 { start with a := 0x0F, mem := [(0x0030, 0x80)] }).flags = 0xA4 := by decide

theorem test_oraIdx :
    (run 0x390010 { start with a := 0, w := 3 }).a = 0 ∧
    (run 0x390010 { start with a := 0, w := 3 }).flags = 0x26 := by decide

theorem test_oraImm :
    (run 0x3A8000 { start with a := 0x0F }).a = 0x8F ∧
    (run 0x3A8000 { start with a := 0x0F }).flags = 0xA4 := by decide

theorem test_xorAbs :
    (run 0x3B0030 { start with a := 0x5A, mem := [(0x0030, 0x5A)] }).a = 0 ∧
    (run 0x3B0030 { start with a := 0x5A, mem := [(0x0030, 0x5A)] }).flags = 0x26 := by decide

theorem test_xorIdx :
    (run 0x3C0010 { start with a := 0x0F, w := 1, mem := [(0x0011, 0xF3)] }).a = 0xFC ∧
    (run 0x3C0010 { start with a := 0x0F, w := 1, mem := [(0x0011, 0xF3)] }).flags = 0xA4 := by decide

theorem test_xorImm :
    (run 0x3DFF00 { start with a := 0xAA }).a = 0x55 ∧
    (run 0x3DFF00 { start with a := 0xAA }).flags = 0x24 := by decide

theorem test_rolAbs :
    (run 0x3E0040 { start with mem := [(0x0040, 0x80)] }).byteAt 0x0040 = 0 ∧
    (run 0x3E0040 { start with mem := [(0x0040, 0x80)] }).flags = 0x25 := by decide

theorem test_rolAcc :
    (run 0x3F0000 { start with a := 0x80 }).a = 0 ∧
    (run 0x3F0000 { start with a := 0x80 }).flags = 0x27 := by decide

theorem test_rorAbs :
    (run 0x400040 { start with flags := 0x27, mem := [(0x0040, 0x01)] }).byteAt 0x0040 = 0x80 ∧
    (run 0x400040 { start with flags := 0x27, mem := [(0x0040, 0x01)] }).flags = 0xA7 := by decide

theorem test_rorAcc :
    (run 0x410000 { start with a := 0xAA, flags := 0x25 }).a = 0xD5 ∧
    (run 0x410000 { start with a := 0xAA, flags := 0x25 }).flags = 0xA4 := by decide

theorem test_bsr :
    (run 0x420000 { start with a := 0x01 }).a = 0 ∧
    (run 0x420000 { start with a := 0x01 }).flags = 0x25 := by decide

theorem test_bsl :
    (run 0x430000 { start with a := 0x05, flags := 0x26 }).a = 0x0A ∧
    (run 0x430000 { start with a := 0x05, flags := 0x26 }).flags = 0x26 := by decide

theorem test_addAbs :
    (run 0x450080 { start with a := 0x7F, mem := [(0x0080, 1)] }).a = 0x80 ∧
    (run 0x450080 { start with a := 0x7F, mem := [(0x0080, 1)] }).flags = 0xE4 := by decide

theorem test_addIdx :
    (run 0x460010 { start with a := 1, w := 3, mem := [(0x0013, 0xFF)] }).a = 0 ∧
    (run 0x460010 { start with a := 1, w := 3, mem := [(0x0013, 0xFF)] }).flags = 0x27 := by decide

theorem test_addImm :
    (run 0x470000 { start with a := 5, flags := 0x25 }).a = 6 ∧
    (run 0x470000 { start with a := 5, flags := 0x25 }).flags = 0x24 := by decide

theorem test_subAbs :
    (run 0x480050 { start with flags := 0x25, mem := [(0x0050, 1)] }).a = 0xFF ∧
    (run 0x480050 { start with flags := 0x25, mem := [(0x0050, 1)] }).flags = 0xA4 := by decide

theorem test_subIdx :
    (run 0x490010 { start with a := 0x80, w := 3, flags := 0x25, mem := [(0x0013, 1)] }).a = 0x7F ∧
    (run 0x490010 { start with a := 0x80, w := 3, flags := 0x25, mem := [(0x0013, 1)] }).flags = 0x65 := by
  decide

theorem test_subImm :
    (run 0x4A0100 { start with a := 0x10 }).a = 0x0E ∧
    (run 0x4A0100 { start with a := 0x10 }).flags = 0x25 := by decide

theorem test_incAbs :
    (run 0x4B0040 { start with flags := 0x25, mem := [(0x0040, 0xFF)] }).byteAt 0x0040 = 0 ∧
    (run 0x4B0040 { start with flags := 0x25, mem := [(0x0040, 0xFF)] }).flags = 0x27 := by decide

theorem test_incIdx :
    (run 0x4C0010 { start with w := 1, mem := [(0x0011, 0x7F)] }).byteAt 0x0011 = 0x80 ∧
    (run 0x4C0010 { start with w := 1, mem := [(0x0011, 0x7F)] }).flags = 0xA4 := by decide

theorem test_decAbs :
    (run 0x4D0200 { start with flags := 0x25 }).byteAt 0x0200 = 0xFF ∧
    (run 0x4D0200 { start with flags := 0x25 }).flags = 0xA5 := by decide

theorem test_decIdx :
    (run 0x4E0010 { start with w := 1, mem := [(0x0011, 1)] }).byteAt 0x0011 = 0 ∧
    (run 0x4E0010 { start with w := 1, mem := [(0x0011, 1)] }).flags = 0x26 := by decide

theorem test_inw :
    (run 0x4F0000 { start with w := 0xFF }).w = 0 ∧
    (run 0x4F0000 { start with w := 0xFF }).flags = 0x26 := by decide

theorem test_dew :
    (run 0x500000 start).w = 0xFF ∧
    (run 0x500000 start).flags = 0xA4 := by decide

theorem test_inx :
    (run 0x510000 { start with x := 0x7F }).x = 0x80 ∧
    (run 0x510000 { start with x := 0x7F }).flags = 0xA4 := by decide

theorem test_dex :
    (run 0x520000 { start with x := 1 }).x = 0 ∧
    (run 0x520000 { start with x := 1 }).flags = 0x26 := by decide

/-! ### The controller and the host (95_test_vectors.md 1.5, 1.7, 2.11) -/

theorem test_start_outside_program_memory :
    faultOf (startup 0x3FFF State.reset) = some (.segmentFault, 1, 0, .start 0x3FFF) := by decide

theorem test_start_header_past_the_top :
    faultOf (startup 0xFFFE (State.reset.putByte 0xFFFE 0x7F)) = some (.addressFault, 5, 0, .address 0x10000) := by
  decide

theorem test_start_bad_marker :
    faultOf (startup 0x4000 (State.reset.putByte 0x4000 0x7E)) = some (.invalidHeader, 2, 0, .marker 0x7E) ∧
    (startup 0x4000 (State.reset.putByte 0x4000 0x7E)).mem = [(0x4000, 0x7E)] := by decide

theorem test_start_valid :
    (startup 0x4000 (hostLoad [0x7F, 0x00, 0x0C] 0x4000 { start with status := .halted, a := 9 })) =
    { State.reset with
      status := .running, startAddr := 0x4000, endAddr := 0x400F, pc := 0x4003,
      mem := [(0x4000, 0x7F), (0x4002, 0x0C)] } := by decide

theorem test_empty_program_halts :
    (next (startup 0x4000 (hostLoad [0x7F, 0, 0] 0x4000 State.reset))).status = .halted := by decide

theorem test_illegal_opcode :
    faultOf (run 0x440000 start) = some (.illegalInstruction, 3, 0x4003, .opcode 0x44) := by decide

theorem test_illegal_mov :
    faultOf (run 0x010106 start) = some (.illegalInstruction, 3, 0x4003, .movOperands 1 1 6) := by decide

theorem test_fetch_past_the_top :
    faultOf (next { start with pc := 0xFFFF, endAddr := 0x10013 }) =
      some (.addressFault, 5, 0xFFFF, .address 0x10000) := by decide

/-- The host holds the core at 0x4003. -/
def held : State := { start with host := { suspend := [0x4003], events := [] } }

theorem test_suspended : next held = held := by decide

/-- After reset, with a program to be loaded and started. -/
def booting : State := { State.reset with host := { suspend := [], events := [.load [0x7F, 0, 3] 0x4000, .start none] } }

theorem test_start_command_from_reset : (next (next booting)).pc = 0x4003 := by decide

theorem test_third_push_faults :
    (push 3 { start with config := capacity 2, sp := 0xFD }).state.fault = some ⟨.stackFault, 4, 0x4003, .push⟩ := by
  decide

theorem test_peek_capacity_two :
    (peek 0x01FD { start with config := capacity 2 } matches .error .stackFault) ∧
    (peek 0x01FE ({ start with config := capacity 2 }.putByte 0x01FE 2) matches .ok 2) := by decide

theorem test_report_completed :
    stepReport (start.withFetchWord 24 0x040500) = some (.completed 0x4006) := by decide

theorem test_report_fault :
    stepReport (start.withFetchWord 24 0x440000) = some (.faulted .illegalInstruction) := by decide

/-- 95_test_vectors.md 1.6, with 90_conflicts.md C2. -/
theorem test_assemble_scenario_a :
    (assemble defaultOpcodeMap "LDA #5\nSTA 0,w\nADD #3\nSTA 0,w".toList matches
      .ok [0x7F, 0x00, 0x0C, 0x04, 5, 0, 0x12, 0, 0, 0x47, 3, 0, 0x12, 0, 0]) := by decide

/-- A row of STA Absolute at opcode 2 shadows LDA Absolute's only row: no encoding, and not STA's byte (30_encoding.md R92). -/
theorem test_assemble_shadowed_form :
    (assemble ((2, .staAbs) :: defaultOpcodeMap) "LDA 5".toList matches .error .noEncoding) ∧
    (assemble ((2, .staAbs) :: defaultOpcodeMap) "LDA #5".toList matches .ok [0x7F, 0, 3, 0x04, 5, 0]) := by decide

/-- The other causes of a CompileError (30_encoding.md R98; the quoted space: log 16). -/
theorem test_assemble_errors :
    (assemble defaultOpcodeMap "LDQ 5".toList matches .error .unknownMnemonic) ∧
    (assemble defaultOpcodeMap "STA #5".toList matches .error .noEncoding) ∧
    (assemble defaultOpcodeMap "LDA #256".toList matches .error .outOfRange) ∧
    (assemble defaultOpcodeMap "LDA #' '".toList matches .error .badOperands) := by decide

/-- Points log 16 fixes: n before the register in `n,x`, and one parenthesis alone (its ASCII code, 0x28). -/
theorem test_assemble_choices :
    (assemble defaultOpcodeMap "LDA 65536,x".toList matches .error .outOfRange) ∧
    (assemble defaultOpcodeMap "LDA 5,x".toList matches .error .noEncoding) ∧
    (assemble defaultOpcodeMap "JMP (5".toList matches .ok [0x7F, 0, 3, 0x1B, 0, 0x28]) := by decide

/-- A ranged read of no byte is accepted past the top; of one byte, refused (log 13). -/
theorem test_hostReadRange_past_the_top :
    hostReadRange 0x10000 0 State.reset = some [] ∧ hostReadRange 0xFFFF 2 State.reset = none := by decide

/-- The examples of 30_encoding.md R97 for acc, abs, rel, ind and reg, and `'A'` of R93. -/
theorem test_assemble_modes :
    (assemble defaultOpcodeMap "ROL\nSTA 0x0200\nbne -6\nJMP (0x0300)\nMOV a,x\nLDA #'A' ; A".toList matches
      .ok [0x7F, 0, 18, 0x3F, 0, 0, 0x11, 2, 0, 0x21, 0xFA, 0, 0x1C, 3, 0, 0x01, 1, 3, 0x04, 0x41, 0]) := by decide

/-- The word placed from reset runs as the next step (log 10). -/
theorem test_withFetchWord_from_reset :
    (run 0x040500 State.reset).a = 5 ∧ (run 0x040500 State.reset).pc = 0x4006 := by decide

/-! ### For each statement with hypotheses, a state and operands that meet them, each clause at the ends of its range -/

/-- A host waiting with one event. -/
def waiting (e : HostEvent) (s : State) : State := { s with host := { suspend := [], events := [e, .clear] } }

theorem test_meets_DecodeOfEncodeIsTheInstruction :
    (Instr.ldaIdx 0xFF).wellFormed defaultOpcodeMap = true ∧ (Instr.mov .z .a).wellFormed [(7, .mov)] = true := by
  decide

theorem test_meets_DecodedOperandBytesAreEncodedBack :
    decode defaultOpcodeMap 0x02 0xFF 0x00 = .ok (.ldaAbs 0xFF00) ∧ usesA1 (Instr.ldaAbs 0xFF00).form.mode = true ∧
    usesA2 (Instr.ldaAbs 0xFF00).form.mode = true := ⟨rfl, rfl, rfl⟩

theorem test_meets_UnusedOperandBytesAreIgnored :
    defaultOpcodeMap.lookup 0x00 = some .nop ∧ usesA1 Form.nop.mode = false ∧ usesA2 Form.nop.mode = false ∧
    defaultOpcodeMap.lookup 0x03 = some .ldaIdx ∧ usesA1 Form.ldaIdx.mode = false ∧ usesA2 Form.ldaIdx.mode = true ∧
    defaultOpcodeMap.lookup 0x04 = some .ldaImm ∧ usesA1 Form.ldaImm.mode = true ∧ usesA2 Form.ldaImm.mode = false := by
  decide

theorem test_meets_DecoderRejectsExactlyTheIllegal :
    [(0, 1), (1, 0), (1, 1), (5, 5), (6, 5), (5, 6)].map (fun p : Byte × Byte => (decode defaultOpcodeMap 1 p.1 p.2).isOk) =
    [false, false, true, true, false, false] := by decide

theorem test_meets_DefaultMapEncodesEveryInstruction :
    [67, 68, 69, 82, 83, 255].map (fun op : Byte => (defaultOpcodeMap.lookup op).isSome) =
    [true, false, true, true, false, false] := by decide

/-- The highest pc whose instruction fits the space: a NOP in empty memory. -/
def atTop : State := { start with pc := 0xFFFD, endAddr := 0x10000 }

theorem test_meets_StepRunsTheDecodedInstruction :
    State.AtInstruction atTop ∧ atTop.pc.toNat + 2 < 65536 ∧
    decode defaultOpcodeMap (atTop.byteAt 0xFFFD) (atTop.byteAt 0xFFFE) (atTop.byteAt 0xFFFF) = .ok .nop :=
  ⟨⟨rfl, rfl, by decide, by decide⟩, by decide, rfl⟩

/-- An illegal opcode at pc. -/
def atUnmapped : State := { start with mem := [(0x4003, 0x44)] }

/-- A MOV with a2 = 6 at pc. -/
def atBadMov : State := { start with mem := [(0x4003, 0x01), (0x4004, 0x01), (0x4005, 0x06)] }

theorem test_meets_IllegalInstructionFaultsWithNoEffect :
    (atUnmapped.AtInstruction ∧ atUnmapped.pc.toNat + 2 < 65536 ∧
      defaultOpcodeMap.lookup (atUnmapped.byteAt 0x4003) = none) ∧
    (atBadMov.AtInstruction ∧ defaultOpcodeMap.lookup (atBadMov.byteAt 0x4003) = some .mov ∧
      (atBadMov.byteAt 0x4004).toNat = 1 ∧ (atBadMov.byteAt 0x4005).toNat = 6) :=
    ⟨⟨⟨rfl, rfl, by decide, by decide⟩, by decide, by decide⟩,
      ⟨⟨rfl, rfl, by decide, by decide⟩, by decide, by decide, by decide⟩⟩

theorem test_meets_FetchPastTheTopFaults :
    State.AtInstruction { start with pc := 0xFFFE, endAddr := 0x10000 } ∧
    State.AtInstruction { start with pc := 0xFFFF, endAddr := 0x10000 } ∧ 0xFFFE ≤ (0xFFFE : Word).toNat :=
    ⟨⟨rfl, rfl, by decide, by decide⟩, ⟨rfl, rfl, by decide, by decide⟩, by decide⟩

/-- The loop test is false by one: pc = END. -/
def atEnd : State := { start with endAddr := 0x4003 }

theorem test_meets_LoopTestThenSuspendDecideTheStep :
    (State.reset.host.events = [] ∧ State.reset.status ≠ .running) ∧
    (atEnd.host.events = [] ∧ atEnd.status = .running ∧
      atEnd.endAddr ≤ atEnd.pc.toNat) ∧
    (held.host.events = [] ∧ held.status = .running ∧ held.pc.toNat < held.endAddr ∧ held.pc ∈ held.host.suspend) := by
  decide

theorem test_meets_EndPastTheTopNeverHalts :
    start.host.events = [] ∧ start.status = .running ∧ 0xFFFF < ({ start with endAddr := 0x10000 } : State).endAddr ∧
    step { start with endAddr := 0x10000 } = .next { start with endAddr := 0x10000, pc := 0x4006 } :=
  ⟨rfl, rfl, by decide, rfl⟩

/-- A running core meets the invariant. -/
theorem start_inv : start.Inv where
  configWf := by decide
  memWf := rfl
  bit5 := rfl
  spInRange := by decide
  endBound := by decide
  endPastHeader := by decide
  faultFits := by show _ ≠ _; decide

/-- A host event is due on a Halted core that meets the invariant. -/
def startDue : State := waiting (.start none) { start with status := .halted }

theorem startDue_inv : startDue.Inv where
  configWf := by decide
  memWf := rfl
  bit5 := rfl
  spInRange := by decide
  endBound := by decide
  endPastHeader := by decide
  faultFits := by show _ ≠ _; decide

theorem test_meets_EveryStepKeepsTheInvariant :
    (start.Inv ∧ step start = .next (next start)) ∧ (startDue.Inv ∧ step startDue = .next (next startDue)) ∧
    (next startDue).fault = some ⟨.invalidHeader, 2, 0, .marker 0⟩ :=
  ⟨⟨start_inv, rfl⟩, ⟨startDue_inv, rfl⟩, by decide⟩

/-- Two bytes on a stack of capacity 2: it is full. -/
def full : State := { start with config := capacity 2, sp := 0xFD }

/-- One byte on a stack of capacity 2. -/
def oneByte : State := { full with sp := 0xFE }

/-- Nothing on a stack of capacity 2. -/
def noByte : State := { full with sp := 0xFF }

theorem test_meets_InstructionsKeepTheControllerSetUp :
    ∃ t, exec (.jfn 0x4010) start = .next t ∧ t.config = start.config := ⟨_, rfl, rfl⟩

theorem test_meets_InstructionsWriteOnlyTheirRegisters :
    ∃ t, exec (.ldaImm 5) start = .next t ∧ t.a = 5 ∧ Reg.x ∉ writtenRegs (.ldaImm 5) := ⟨_, rfl, rfl, by decide⟩

theorem test_meets_InstructionsWriteOnlyTheirFlags :
    ∃ t, exec .sec start = .next t ∧ t.flagC = true ∧ (7 ∉ writtenFlags .sec) := ⟨_, rfl, rfl, by decide⟩

theorem test_meets_OnlyWritersChangeMemoryAndStackPointer :
    (∃ t, exec (.ldaAbs 5) start = .next t) ∧ writesMemory (.ldaAbs 5) = false ∧ usesStack (.staAbs 5) = false :=
  ⟨⟨_, rfl⟩, rfl, rfl⟩

theorem test_meets_PcAdvancesByThreeOrStaysAtAFault :
    (transfersControl .nop = false ∧ start.status ≠ .faulted ∧ ∃ t, exec .nop start = .next t ∧ t.status ≠ .faulted) ∧
    (transfersControl .pha = false ∧ full.status ≠ .faulted ∧ ∃ t, exec .pha full = .next t ∧ t.status = .faulted) :=
    ⟨⟨rfl, by decide, _, rfl, by decide⟩, ⟨rfl, by decide, _, rfl, rfl⟩⟩

theorem test_meets_OnlyStackAndTopPointerFormsFault :
    (full.status ≠ .faulted ∧ ∃ t, exec .pha full = .next t ∧ t.status = .faulted) ∧
    ∃ t, exec (.jmpInd 0xFFFF) start = .next t ∧ t.status = .faulted := ⟨⟨by decide, _, rfl, rfl⟩, _, rfl, rfl⟩

theorem test_meets_ExecuteFaultsArePrecise :
    (full.config.wf = true ∧ full.SpInRange ∧ full.status ≠ .faulted ∧ ∃ t, exec .pha full = .next t ∧ t.status = .faulted) ∧
    (start.config.wf = true ∧ start.SpInRange ∧ ∃ t, exec (.jmpInd 0xFFFF) start = .next t ∧ t.status = .faulted) :=
    ⟨⟨by decide, by decide, by decide, _, rfl, rfl⟩, ⟨by decide, by decide, _, rfl, rfl⟩⟩

theorem test_meets_MemReadReturnsTheLastMemWrite :
    start.mem.wf = true ∧ 0 < 65536 ∧ 65535 < 65536 ∧ 65535 ≠ 0 ∧ 65536 ≤ 65536 := by decide

/-- An empty stack, and one with one byte left. -/
theorem test_meets_PopReturnsThePushedByte :
    (start.StackOk ∧ start.sp ≠ start.config.spMin) ∧
    (oneByte.StackOk ∧ oneByte.sp ≠ full.config.spMin) := by decide

theorem test_meets_ExactlyCapacityPushesSucceed :
    full.config.wf = true ∧ full.mem.wf = true ∧ noByte.sp = full.config.spTop ∧
    [1, 2].length ≤ full.config.stackCapacity.toNat ∧ full.config.stackCapacity.toNat < [1, 2, 3].length := by
  decide

theorem test_meets_StoresWriteTheRegisterOnly :
    start.mem.wf = true ∧ Memory.wf [(0x0000, 0x55), (0xFFFF, 1)] = true := by decide

theorem test_meets_JumpsLandThreePastTheirTarget : (0xFFFE : Word) ≠ 0xFFFF ∧ (0 : Word) ≠ 0xFFFF := by decide

theorem test_meets_JfnPushesItsAddressAndJumps :
    (start.StackOk ∧ start.config.spMin.toNat + 2 ≤ start.sp.toNat) ∧
    (noByte.StackOk ∧ full.config.spMin.toNat + 2 ≤ noByte.sp.toNat) := by decide

theorem test_meets_JfnFaultsOnAFullStack :
    full.sp = full.config.spMin ∧ oneByte.StackOk ∧
    oneByte.sp.toNat = full.config.spMin.toNat + 1 := by decide

theorem test_meets_RetPopsAnAddressAndGoesOnAfterIt :
    (full.StackOk ∧ full.sp.toNat + 2 ≤ full.config.spTop.toNat) ∧
    (State.StackOk { start with sp := 0 } ∧ ({ start with sp := 0 } : State).sp.toNat + 2 ≤ start.config.spTop.toNat) := by
  decide

theorem test_meets_RetFaultsOnAShortStack :
    start.sp = start.config.spTop ∧ oneByte.StackOk ∧
    oneByte.sp.toNat + 1 = full.config.spTop.toNat := by decide

theorem test_meets_RetAfterJfnContinuesAfterTheCall :
    start.StackOk ∧ start.config.spMin.toNat + 2 ≤ start.sp.toNat := by decide

theorem test_meets_PhsAndPhaPushOneByte :
    (start.StackOk ∧ start.sp ≠ start.config.spMin) ∧
    (oneByte.StackOk ∧ oneByte.sp ≠ full.config.spMin) ∧ full.sp = full.config.spMin := by decide

theorem test_meets_PosWritesTheWholeFlags :
    (full.StackOk ∧ full.sp ≠ full.config.spTop) ∧
    (oneByte.StackOk ∧ oneByte.sp ≠ full.config.spTop) ∧
    start.sp = start.config.spTop := by decide

theorem test_meets_PoaPopsIntoAAndSetsNZ :
    (full.StackOk ∧ full.sp ≠ full.config.spTop) ∧
    (oneByte.StackOk ∧ oneByte.sp ≠ full.config.spTop) ∧
    start.sp = start.config.spTop := by decide

theorem test_meets_PosAfterPhsRestoresTheFlags : start.StackOk ∧ start.sp ≠ start.config.spMin := by decide

theorem test_meets_RotatesOfAMemoryCell : start.mem.wf = true ∧ Memory.wf [(0xFFFF, 0x80)] = true := by decide

theorem test_meets_IncAndDecStepACell :
    start.mem.wf = true ∧ Memory.wf [(0, 0xFF), (0xFFFF, 1)] = true := by decide

/-- A valid header at the highest address a header fits, and a start command for it. -/
def startAtTop : State :=
  waiting (.start (some 0xFFFD)) { State.reset with mem := [(0xFFFD, 0x7F), (0xFFFE, 0xFF), (0xFFFF, 0xFF)] }

/-- A valid header at DEFAULT_START, and a start command with no address. -/
def startDefault : State := waiting (.start none) { State.reset with mem := [(0x4000, 0x7F)] }

/-- A core whose program memory ends at 0x7FFF. -/
def halfMemory : State := { State.reset with config := { defaultConfig with progHi := 0x7FFF } }

theorem test_meets_StartWithAValidHeaderRuns :
    (startAtTop.host.events = [.start (some 0xFFFD), .clear] ∧ startAtTop.status ≠ .running ∧
      startAtTop.config.progLo.toNat ≤ 0xFFFD ∧ 0xFFFD ≤ startAtTop.config.progHi.toNat ∧ 0xFFFD + 2 < 65536 ∧
      startAtTop.byteAt 0xFFFD = 0x7F) ∧
    (startDefault.host.events = [.start none, .clear] ∧ (none : Option Word).getD startDefault.config.defaultStart = 0x4000 ∧
      startDefault.status ≠ .running ∧ startDefault.config.progLo.toNat ≤ 0x4000 ∧ startDefault.byteAt 0x4000 = 0x7F) := by
  decide

theorem test_meets_StartFaultsInOrder :
    halfMemory.status ≠ .running ∧ 0x3FFF < halfMemory.config.progLo.toNat ∧ halfMemory.config.progHi.toNat < 0x8000 ∧
    (State.reset.status ≠ .running ∧ State.reset.config.progLo.toNat ≤ 0xFFFE ∧ 0xFFFF ≤ State.reset.config.progHi.toNat) ∧
    (0xFFFD < 0xFFFE ∧ State.reset.byteAt 0xFFFD ≠ 0x7F ∧ State.reset.byteAt 0x4000 ≠ 0x7F) := by decide

theorem test_meets_RunningCoreIgnoresStartAndMemoryOperations :
    [HostEvent.start none, .load [1] 0, .clear, .write 0xFFFF 1].all (fun e => decide ((waiting e start).status = .running ∧
      (waiting e start).host.events = e :: [.clear] ∧ e ≠ .quiet)) = true ∧
    (∀ pcs, HostEvent.clear ≠ .suspendAt pcs) := ⟨by decide, fun _ => HostEvent.noConfusion⟩

theorem test_meets_HostLoadAndClearSetMemory :
    State.reset.status ≠ .running ∧ State.reset.mem.wf = true ∧ 65534 + [(1 : Byte), 2].length ≤ 65536 ∧
    [(1 : Byte), 2] ≠ [] ∧ 65536 < 65535 + [(1 : Byte), 2].length := by decide

theorem test_meets_HostIsToldPcOrFaultKind :
    (start.AtInstruction ∧ step start = .next (next start) ∧ (next start).status = .running) ∧
    (atUnmapped.AtInstruction ∧ step atUnmapped = .next (next atUnmapped) ∧ (next atUnmapped).status = .faulted) :=
    ⟨⟨⟨rfl, rfl, by decide, by decide⟩, rfl, by decide⟩,
      ⟨⟨rfl, rfl, by decide, by decide⟩, rfl, by decide⟩⟩

end Sys2Proof.Tests
end

section
/-! The invariant at power-on: it holds under every configuration within R6's constraints, and reset's is one of them. -/

namespace Sys2Proof.Machine

/-- The default parameters are within their own constraints (00_scope.md R6). -/
theorem defaultConfig_wf : defaultConfig.wf = true := by decide

/-- The legal range of SP is not empty: SP_TOP itself lies in it (20_memory.md R64). -/
theorem Config.spMin_le_spTop {c : Config} (h : c.wf = true) : c.spMin.toNat ≤ c.spTop.toNat := by
  rw [Config.spMin_toNat h]
  exact Nat.sub_le _ _

/-- An empty FAULT fits every status but Faulted (10_state.md R37). -/
theorem State.faultFits_of_none {s : State} (hf : s.fault = none) (hs : s.status ≠ .faulted) : s.FaultFits := by
  simpa only [State.FaultFits, hf] using hs

/-- Power-on meets the invariant whenever its configuration is within R6's constraints (10_state.md R40). -/
theorem State.powerOn_inv {c : Config} (h : c.wf = true) : (State.powerOn c).Inv where
  configWf := h
  memWf := State.powerOn_mem_wf c
  bit5 := by rw [State.powerOn_flags]; decide
  spInRange := ⟨Config.spMin_le_spTop h, Nat.le_refl _⟩
  endBound := Nat.zero_le _
  endPastHeader := by simp
  faultFits := State.faultFits_of_none rfl (by simp)

/-- Settles O12: reset is power-on under the default configuration, which is within R6's constraints. -/
theorem resetMeetsTheInvariant : Obligations.ResetMeetsTheInvariant :=
  State.powerOn_inv defaultConfig_wf

end Sys2Proof.Machine
end

section
/-! What an instruction can do, said once: a run of single writes that the tables of 10_state.md R22, R29 and 20_memory.md
R49 allow it, and then the advance or a fault. The statements about every instruction follow from it. -/

namespace Sys2Proof.Machine

/-- One write an instruction may make: to a register or flag of its tables' columns, to a cell that exists, or to SP within
the stack's bounds. The common advance and the raising of a fault are not among them. -/
inductive Effect (i : Instr) : State → State → Prop
  /-- A general register of R22's table. -/
  | setReg {s : State} {r : Reg} (v : Byte) (hr : r ∈ writtenRegs i) : Effect i s (s.setReg r v)
  /-- A flag of R29's table. -/
  | setFlag {s : State} {k : Nat} (b : Bool) (hk : k ∈ writtenFlags i) : Effect i s (s.setFlag k b)
  /-- POS writes the flags as a whole byte (44_flags_stack.md R184). -/
  | writeFlags {s : State} (v : Byte) (hi : i = .pos) : Effect i s (s.writeFlags v)
  /-- A cell of memory, for the instructions of R49's table. -/
  | putByte {s : State} {a : Nat} (v : Byte) (hi : writesMemory i = true) (ha : a < memSize) : Effect i s (s.putByte a v)
  /-- SP down, past Push's check (20_memory.md R62). -/
  | spDown {s : State} (hi : usesStack i = true) (hs : s.sp ≠ s.config.spMin) : Effect i s (s.setSp (s.sp - 1))
  /-- SP up, past Pop's check (20_memory.md R63). -/
  | spUp {s : State} (hi : usesStack i = true) (hs : s.sp ≠ s.config.spTop) : Effect i s (s.setSp (s.sp + 1))

/-- A run of the writes an instruction may make. -/
abbrev Effects (i : Instr) : State → State → Prop := Relation.ReflTransGen (Effect i)

/-- A piece of an instruction, begun in s, ended after writes of that instruction alone, with a value or by a raise. -/
inductive Res.MadeBy (i : Instr) (s : State) {α : Type} : Res α → Prop
  | done {v : α} {t : State} (h : Effects i s t) : Res.MadeBy i s (.done v t)
  | raised {t : State} (info : FaultInfo) (h : Effects i s t) : Res.MadeBy i s (.raised (t.enterFault info))

variable {i : Instr} {s t : State}

theorem Effects.setFlag (h : Effects i s t) {k : Nat} (b : Bool) (hk : k ∈ writtenFlags i) : Effects i s (t.setFlag k b) :=
  h.tail (.setFlag b hk)

theorem Effects.setNZ (h : Effects i s t) (v : Byte) (hf : [bitN, bitZ] ⊆ writtenFlags i) : Effects i s (t.setNZ v) :=
  Effects.setFlag (Effects.setFlag h _ (hf (by simp))) _ (hf (by simp))

theorem Effects.setShift (h : Effects i s t) (o : Byte × Bool) (hf : [bitN, bitC] ⊆ writtenFlags i) :
    Effects i s (t.setShift o) :=
  Effects.setFlag (Effects.setFlag h _ (hf (by simp))) _ (hf (by simp))

theorem Effects.setRotateAcc (h : Effects i s t) (o : Byte × Bool) (hf : [bitN, bitZ, bitC] ⊆ writtenFlags i) :
    Effects i s (t.setRotateAcc o) :=
  Effects.setFlag (Effects.setShift h o (List.Subset.trans (by decide) hf)) _ (hf (by simp))

theorem Effects.setCompare (h : Effects i s t) (o : CmpResult) (hf : [bitN, bitZ, bitC] ⊆ writtenFlags i) :
    Effects i s (t.setCompare o) :=
  Effects.setFlag (Effects.setFlag (Effects.setFlag h _ (hf (by simp))) _ (hf (by simp))) _ (hf (by simp))

theorem Effects.setArith (h : Effects i s t) (o : AddResult) (hf : [bitN, bitV, bitZ, bitC] ⊆ writtenFlags i) :
    Effects i s (t.setArith o) :=
  Effects.setNZ (Effects.setFlag (Effects.setFlag h _ (hf (by simp))) _ (hf (by simp))) _
    (List.Subset.trans (by decide) hf)

/-! The shared operations (20_memory.md R47, R48, R62, R63): each is made of such writes. -/

/-- Statements in order: what each part may write, the sequence may. -/
theorem Res.MadeBy.bind {α β : Type} {m : Res α} {k : α → State → Res β} (hm : m.MadeBy i s)
    (hk : ∀ v t, Effects i s t → (k v t).MadeBy i s) : (m.bind k).MadeBy i s := by
  cases hm with
  | done h => exact hk _ _ h
  | raised info h => exact .raised info h

/-- A `MemRead` answers the state as it is or a fault (20_memory.md R47). -/
theorem memRead_cases (a : Nat) (s : State) :
    memRead a s = .done (s.byteAt a) s ∨ ∃ info, memRead a s = .raised (s.enterFault info) := by
  by_cases ha : a < memSize
  · exact .inl (memRead_inside ha s)
  · exact .inr ⟨_, memRead_outside (Nat.le_of_not_lt ha) s⟩

theorem memRead_madeBy (a : Nat) (h : Effects i s t) : (memRead a t).MadeBy i s := by
  obtain he | ⟨info, he⟩ := memRead_cases a t <;> rw [he]
  · exact .done h
  · exact .raised info h

theorem memWrite_madeBy (a : Nat) (v : Byte) (hi : writesMemory i = true) (h : Effects i s t) :
    (memWrite a v t).MadeBy i s := by
  by_cases ha : a < memSize
  · rw [memWrite_inside ha]; exact .done (h.tail (.putByte v hi ha))
  · rw [memWrite_outside (Nat.le_of_not_lt ha)]; exact .raised _ h

/-- The instructions that use the stack are among those that write memory (20_memory.md R49). -/
theorem writesMemory_of_usesStack (hi : usesStack i = true) : writesMemory i = true := by
  cases i with
  | jfn | ret | phs | pos | pha | poa => rfl
  | _ => exact absurd hi Bool.false_ne_true

theorem push_madeBy (v : Byte) (hi : usesStack i = true) (h : Effects i s t) : (push v t).MadeBy i s := by
  rcases push_cases v t with ⟨-, he⟩ | ⟨-, -, he⟩ | ⟨hs, hc, he⟩ <;> rw [he]
  · exact .raised _ h
  · exact .raised _ h
  · exact .done ((h.tail (.putByte v (writesMemory_of_usesStack hi) hc)).tail (.spDown hi hs))

theorem pop_madeBy (hi : usesStack i = true) (h : Effects i s t) : (pop t).MadeBy i s := by
  rcases pop_cases t with ⟨-, he⟩ | ⟨hs, -, he⟩ | ⟨hs, hc, he⟩ <;> rw [he]
  · exact .raised _ h
  · exact .raised _ (h.tail (.spUp hi hs))
  · exact .done ((h.tail (.spUp hi hs)).tail (.putByte 0 (writesMemory_of_usesStack hi) hc))

/-! The shared execute parts of the instruction families. -/

theorem loadInto_madeBy {r : Reg} {op : Res Byte} (hop : op.MadeBy i s) (hr : r ∈ writtenRegs i)
    (hf : [bitN, bitZ] ⊆ writtenFlags i) : (loadInto r op).MadeBy i s :=
  hop.bind fun v _ h => .done (Effects.setNZ (h.tail (.setReg v hr)) v hf)

theorem storeFrom_madeBy (r : Reg) (ea : Word) (hi : writesMemory i = true) : (storeFrom r ea s).MadeBy i s :=
  (memWrite_madeBy _ _ hi .refl).bind fun _ _ h => .done h

theorem compareWith_madeBy {r : Reg} {op : Res Byte} (hop : op.MadeBy i s) (hf : [bitN, bitZ, bitC] ⊆ writtenFlags i) :
    (compareWith r op).MadeBy i s :=
  hop.bind fun _ _ h => .done (Effects.setCompare h _ hf)

theorem bitwiseIntoA_madeBy {f : Byte → Byte → Byte} {op : Res Byte} (hop : op.MadeBy i s) (hr : .a ∈ writtenRegs i)
    (hf : [bitN, bitZ] ⊆ writtenFlags i) : (bitwiseIntoA f op).MadeBy i s :=
  hop.bind fun _ _ h => .done (Effects.setNZ (h.tail (.setReg _ hr)) _ hf)

theorem arithIntoA_madeBy {f : Byte → Byte → Bool → AddResult} {op : Res Byte} (hop : op.MadeBy i s)
    (hr : .a ∈ writtenRegs i) (hf : [bitN, bitV, bitZ, bitC] ⊆ writtenFlags i) : (arithIntoA f op).MadeBy i s :=
  hop.bind fun _ _ h => .done (Effects.setArith (h.tail (.setReg _ hr)) _ hf)

theorem rotateCell_madeBy (f : Byte → Bool → Byte × Bool) (ea : Word) (hi : writesMemory i = true)
    (hf : [bitN, bitC] ⊆ writtenFlags i) : (rotateCell f ea s).MadeBy i s :=
  (memRead_madeBy _ .refl).bind fun _ _ h =>
    (memWrite_madeBy _ _ hi h).bind fun _ _ h => .done (Effects.setShift h _ hf)

theorem stepCell_madeBy (f : Byte → Byte) (ea : Word) (hi : writesMemory i = true) (hf : [bitN, bitZ] ⊆ writtenFlags i) :
    (stepCell f ea s).MadeBy i s :=
  (memRead_madeBy _ .refl).bind fun _ _ h =>
    (memWrite_madeBy _ _ hi h).bind fun _ _ h => .done (Effects.setNZ h _ hf)

theorem rotateA_madeBy (f : Byte → Bool → Byte × Bool) (hr : .a ∈ writtenRegs i)
    (hf : [bitN, bitZ, bitC] ⊆ writtenFlags i) : (rotateA f s).MadeBy i s :=
  .done (Effects.setRotateAcc (.single (.setReg _ hr)) _ hf)

theorem shiftA_madeBy (f : Byte → Byte × Bool) (hr : .a ∈ writtenRegs i) (hf : [bitN, bitC] ⊆ writtenFlags i) :
    (shiftA f s).MadeBy i s :=
  .done (Effects.setShift (.single (.setReg _ hr)) _ hf)

theorem stepReg_madeBy (f : Byte → Byte) {r : Reg} (hr : r ∈ writtenRegs i) (hf : [bitN, bitZ] ⊆ writtenFlags i) :
    (stepReg f r s).MadeBy i s :=
  .done (Effects.setNZ (.single (.setReg _ hr)) _ hf)

theorem branchIf_madeBy (cond : Bool) (disp : Byte) : (branchIf cond disp s).MadeBy i s := by
  rw [branchIf_eq]; exact .done .refl

theorem opImm_madeBy (v : Byte) : (opImm v s).MadeBy i s := .done .refl

theorem opAbs_madeBy (addr : Word) : (opAbs addr s).MadeBy i s := memRead_madeBy _ .refl

theorem opIdx_madeBy (zp : Byte) : (opIdx zp s).MadeBy i s := memRead_madeBy _ .refl

end Sys2Proof.Machine
end

section
/-! Every instruction is such a run of writes, and what all writes keep every instruction keeps. -/

namespace Sys2Proof.Machine

/-- An instruction's execute part makes no write but those its tables allow (10_state.md R22, R29; 20_memory.md R49). -/
theorem exec_madeBy (i : Instr) (s : State) : ∃ r, exec i s = finish r ∧ r.MadeBy i s := by
  cases i with
  | nop => exact ⟨_, rfl, .done .refl⟩
  | mov => exact ⟨_, rfl, loadInto_madeBy (.done .refl) (.head _) (.refl _)⟩
  | ldaAbs | ldwAbs | ldxAbs | ldyAbs | ldzAbs =>
    exact ⟨_, rfl, loadInto_madeBy (opAbs_madeBy _) (.head _) (.refl _)⟩
  | ldaIdx | ldwIdx | ldxIdx | ldyIdx | ldzIdx =>
    exact ⟨_, rfl, loadInto_madeBy (opIdx_madeBy _) (.head _) (.refl _)⟩
  | ldaImm | ldwImm | ldxImm | ldyImm | ldzImm =>
    exact ⟨_, rfl, loadInto_madeBy (opImm_madeBy _) (.head _) (.refl _)⟩
  | staAbs | staIdx | stwAbs | stwIdx | stxAbs | stxIdx | styAbs | styIdx | stzAbs | stzIdx =>
    exact ⟨_, rfl, storeFrom_madeBy _ _ rfl⟩
  | jmpAbs => exact ⟨_, rfl, .done .refl⟩
  | jmpInd =>
    exact ⟨_, rfl, (memRead_madeBy _ .refl).bind fun _ _ h => (memRead_madeBy _ h).bind fun _ _ h => .done h⟩
  | jfn => exact ⟨_, rfl, (push_madeBy _ rfl .refl).bind fun _ _ h => (push_madeBy _ rfl h).bind fun _ _ h => .done h⟩
  | ret => exact ⟨_, rfl, (pop_madeBy rfl .refl).bind fun _ _ h => (pop_madeBy rfl h).bind fun _ _ h => .done h⟩
  | bcc | bcs | bne | beq | brp | brn => exact ⟨_, rfl, branchIf_madeBy _ _⟩
  | clc | sec | clo => exact ⟨_, rfl, .done (.single (.setFlag _ (.head _)))⟩
  | phs | pha => exact ⟨_, rfl, (push_madeBy _ rfl .refl).bind fun _ _ h => .done h⟩
  | pos => exact ⟨_, rfl, (pop_madeBy rfl .refl).bind fun v _ h => .done (h.tail (.writeFlags v rfl))⟩
  | poa => exact ⟨_, rfl, loadInto_madeBy (pop_madeBy rfl .refl) (.head _) (.refl _)⟩
  | cmpAbs | cpwAbs | cpxAbs => exact ⟨_, rfl, compareWith_madeBy (opAbs_madeBy _) (.refl _)⟩
  | cmpIdx | cpwIdx | cpxIdx => exact ⟨_, rfl, compareWith_madeBy (opIdx_madeBy _) (.refl _)⟩
  | cmpImm | cpwImm | cpxImm => exact ⟨_, rfl, compareWith_madeBy (opImm_madeBy _) (.refl _)⟩
  | andAbs | oraAbs | xorAbs => exact ⟨_, rfl, bitwiseIntoA_madeBy (opAbs_madeBy _) (.head _) (.refl _)⟩
  | andIdx | oraIdx | xorIdx => exact ⟨_, rfl, bitwiseIntoA_madeBy (opIdx_madeBy _) (.head _) (.refl _)⟩
  | andImm | oraImm | xorImm => exact ⟨_, rfl, bitwiseIntoA_madeBy (opImm_madeBy _) (.head _) (.refl _)⟩
  | rolAbs | rorAbs => exact ⟨_, rfl, rotateCell_madeBy _ _ rfl (.refl _)⟩
  | rolAcc | rorAcc => exact ⟨_, rfl, rotateA_madeBy _ (.head _) (.refl _)⟩
  | bsr | bsl => exact ⟨_, rfl, shiftA_madeBy _ (.head _) (.refl _)⟩
  | addAbs | subAbs => exact ⟨_, rfl, arithIntoA_madeBy (opAbs_madeBy _) (.head _) (.refl _)⟩
  | addIdx | subIdx => exact ⟨_, rfl, arithIntoA_madeBy (opIdx_madeBy _) (.head _) (.refl _)⟩
  | addImm | subImm => exact ⟨_, rfl, arithIntoA_madeBy (opImm_madeBy _) (.head _) (.refl _)⟩
  | incAbs | incIdx | decAbs | decIdx => exact ⟨_, rfl, stepCell_madeBy _ _ rfl (.refl _)⟩
  | inw | dew | inx | dex => exact ⟨_, rfl, stepReg_madeBy _ (.head _) (.refl _)⟩

/-- What an instruction leaves: its writes, and then the common advance (41_cycle.md R133) or a fault
(60_exceptions.md R243). -/
theorem exec_next_cases {i : Instr} {s t : State} (h : exec i s = .next t) :
    ∃ u, Effects i s u ∧ ((∃ base, t = u.advance base) ∨ ∃ info, t = u.enterFault info) := by
  obtain ⟨r, hr, hm⟩ := exec_madeBy i s
  rw [hr] at h
  cases hm with
  | done hu => cases h; exact ⟨_, hu, .inl ⟨_, rfl⟩⟩
  | raised info hu => cases h; exact ⟨_, hu, .inr ⟨info, rfl⟩⟩

/-- What each single write keeps, a run of them keeps. -/
theorem Effects.keep {i : Instr} {P : State → Prop} (hstep : ∀ {u v}, Effect i u v → P u → P v) {s t : State}
    (h : Effects i s t) (hs : P s) : P t := by
  induction h with
  | refl => exact hs
  | tail _ he ih => exact hstep he ih

/-- What each single write, the advance and a fault keep, every instruction keeps. -/
theorem exec_keeps {i : Instr} {P : State → Prop} (hstep : ∀ {u v}, Effect i u v → P u → P v)
    (hadvance : ∀ {u} base, P u → P (u.advance base)) (hfault : ∀ {u} info, P u → P (u.enterFault info))
    {s t : State} (h : exec i s = .next t) (hs : P s) : P t := by
  obtain ⟨u, hu, ⟨base, rfl⟩ | ⟨info, rfl⟩⟩ := exec_next_cases h
  · exact hadvance base (hu.keep hstep hs)
  · exact hfault info (hu.keep hstep hs)

end Sys2Proof.Machine
end

section
/-! The frames of every instruction: the controller's set-up, the general registers, the flags, memory and SP
(10_state.md R22, R28, R29, R31, R36, R41; 20_memory.md R49). -/

namespace Sys2Proof.Machine

section
variable {i : Instr} {s t : State}

/-- No write of an instruction is to the controller's state, the configuration or the host's inputs. -/
theorem Effect.controlKept (h : Effect i s t) : ControlKept s t := by
  cases h with
  | setReg => simp [ControlKept]
  | _ => exact ⟨rfl, rfl, rfl, rfl, rfl, rfl⟩

theorem ControlKept.trans {s t u : State} (ht : ControlKept s t) (hu : ControlKept t u) : ControlKept s u := by
  obtain ⟨hstatus, hstart, hend, hfault, hconfig, hhost⟩ := hu
  simpa only [ControlKept, hstatus, hstart, hend, hfault, hconfig, hhost] using ht

theorem Effects.controlKept (h : Effects i s t) : ControlKept s t :=
  h.keep (P := ControlKept s) (fun he hu => hu.trans he.controlKept) ⟨rfl, rfl, rfl, rfl, rfl, rfl⟩

/-- A write of an instruction leaves the registers outside its column of R22's table. -/
theorem Effect.reg_eq (h : Effect i s t) {r : Reg} (hr : r ∉ writtenRegs i) : t.reg r = s.reg r := by
  cases h with
  | setReg v hq => exact State.setReg_reg_other s v fun he => hr (he ▸ hq)
  | _ => simp

/-- R29's table has bits of the flags only, and not bit 5 (10_state.md R28). -/
theorem mem_writtenFlags {k : Nat} (hk : k ∈ writtenFlags i) : k < 8 ∧ k ≠ 5 := by
  have hall : (writtenFlags i).all (fun k => decide (k < 8 ∧ k ≠ 5)) = true := by cases i <;> rfl
  simpa using List.all_eq_true.1 hall k hk

/-- A write of an instruction leaves the flags, as they read, outside its column of R29's table. -/
theorem Effect.flag_eq (h : Effect i s t) {j : Nat} (hj : j < 8) (hn : j ∉ writtenFlags i) :
    t.readFlags.getLsbD j = s.readFlags.getLsbD j := by
  cases h with
  | setReg => simp
  | @setFlag k b hk =>
    have hjk : j ≠ k := fun he => hn (he ▸ hk)
    simp only [State.getLsbD_readFlags, State.setFlag_flags, getLsbD_putBit (mem_writtenFlags hk).1, if_neg hjk]
  | writeFlags v hi =>
    subst hi
    have h5 : j = 5 := by simp only [writtenFlags, List.mem_cons, not_or] at hn; omega
    simp only [State.getLsbD_readFlags, if_pos h5]
  | putByte => rfl
  | spDown => rfl
  | spUp => rfl

/-- An instruction outside R49's table writes no cell. -/
theorem Effect.mem_eq (h : Effect i s t) (hi : writesMemory i = false) : t.mem = s.mem := by
  cases h with
  | setReg => simp
  | putByte v hw => simp [hw] at hi
  | _ => rfl

/-- An instruction that does not use the stack leaves SP. -/
theorem Effect.sp_eq (h : Effect i s t) (hi : usesStack i = false) : t.sp = s.sp := by
  cases h with
  | setReg => simp
  | spDown hw => simp [hw] at hi
  | spUp hw => simp [hw] at hi
  | _ => rfl

end

/-- Settles O15: the writes keep the whole controller state, and the end of an instruction writes only pc, status and FAULT. -/
theorem instructionsKeepTheControllerSetUp : Obligations.InstructionsKeepTheControllerSetUp := by
  intro i s t h
  obtain ⟨u, hu, hend⟩ := exec_next_cases h
  obtain ⟨-, hstart, hendAddr, -, hconfig, hhost⟩ := hu.controlKept
  obtain ⟨base, rfl⟩ | ⟨info, rfl⟩ := hend
  · exact ⟨hstart, hendAddr, hconfig, hhost⟩
  · exact ⟨hstart, hendAddr, hconfig, hhost⟩

/-- Settles O16: a register is written by `setReg` only, and there it is one of the table's. -/
theorem instructionsWriteOnlyTheirRegisters : Obligations.InstructionsWriteOnlyTheirRegisters := fun _ s _ h r hr =>
  exec_keeps (P := fun u => u.reg r = s.reg r) (fun he hu => (he.reg_eq hr).trans hu)
    (fun base hu => (State.advance_reg _ base r).trans hu) (fun info hu => (State.enterFault_reg _ info r).trans hu) h rfl

/-- Settles O17: a flag is written by `setFlag`, and there it is one of the table's, or by POS, which writes all but bit 5. -/
theorem instructionsWriteOnlyTheirFlags : Obligations.InstructionsWriteOnlyTheirFlags := by
  refine fun i s t h => ⟨fun j hj hn => ?_, by simp [State.getLsbD_readFlags]⟩
  exact exec_keeps (P := fun u => u.readFlags.getLsbD j = s.readFlags.getLsbD j)
    (fun he hu => (he.flag_eq hj hn).trans hu) (fun _ hu => hu) (fun _ hu => hu) h rfl

/-- Settles O18: cells are written by `putByte` and SP by the stack engine only. -/
theorem onlyWritersChangeMemoryAndStackPointer : Obligations.OnlyWritersChangeMemoryAndStackPointer := fun _ s _ h =>
  ⟨fun hi => exec_keeps (P := fun u => u.mem = s.mem) (fun he hu => (he.mem_eq hi).trans hu)
      (fun _ hu => hu) (fun _ hu => hu) h rfl,
    fun hi => exec_keeps (P := fun u => u.sp = s.sp) (fun he hu => (he.sp_eq hi).trans hu)
      (fun _ hu => hu) (fun _ hu => hu) h rfl⟩

end Sys2Proof.Machine
end

section
/-! The invariant is kept: by each write of an instruction, by the advance and a fault, by the controller and by the host's
actions; and so by every step. -/

namespace Sys2Proof.Machine

section
variable {i : Instr} {s t : State}

/-! One rule for each part of the state that an update replaces. -/

theorem State.Inv.withMem (h : s.Inv) {m : Memory} (hm : m.wf = true) : State.Inv { s with mem := m } :=
  ⟨h.configWf, hm, h.bit5, h.spInRange, h.endBound, h.endPastHeader, h.faultFits⟩

theorem State.Inv.withFlags (h : s.Inv) {f : Byte} (hf : f.getLsbD 5 = true) : State.Inv { s with flags := f } :=
  ⟨h.configWf, h.memWf, hf, h.spInRange, h.endBound, h.endPastHeader, h.faultFits⟩

theorem State.Inv.withHost (h : s.Inv) (p : HostPort) : State.Inv { s with host := p } :=
  ⟨h.configWf, h.memWf, h.bit5, h.spInRange, h.endBound, h.endPastHeader, h.faultFits⟩

theorem State.Inv.setSp (h : s.Inv) {v : Byte} (hv : (s.setSp v).SpInRange) : (s.setSp v).Inv :=
  ⟨h.configWf, h.memWf, h.bit5, hv, h.endBound, h.endPastHeader, h.faultFits⟩

theorem State.Inv.setReg (h : s.Inv) (r : Reg) (v : Byte) : (s.setReg r v).Inv := by
  obtain ⟨hc, hm, h5, hsp, he, hp, hf⟩ := h
  cases r <;> exact ⟨hc, hm, h5, hsp, he, hp, hf⟩

/-- Past Push's check SP has room to go down (20_memory.md R62, R64). -/
theorem State.SpInRange.down (h : s.SpInRange) (hs : s.sp ≠ s.config.spMin) : (s.setSp (s.sp - 1)).SpInRange := by
  simp only [State.SpInRange, State.setSp_sp, State.setSp_config] at h ⊢
  bv_omega

/-- Past Pop's check SP has room to go up (20_memory.md R63, R64). -/
theorem State.SpInRange.up (h : s.SpInRange) (hs : s.sp ≠ s.config.spTop) : (s.setSp (s.sp + 1)).SpInRange := by
  simp only [State.SpInRange, State.setSp_sp, State.setSp_config] at h ⊢
  bv_omega

/-- Each write of an instruction keeps the invariant. -/
theorem Effect.inv (he : Effect i s t) (h : s.Inv) : t.Inv := by
  cases he with
  | @setReg r v => exact h.setReg r v
  | setFlag b hk =>
    obtain ⟨hlt, hne⟩ := mem_writtenFlags hk
    exact h.withFlags (by rw [getLsbD_putBit hlt, if_neg hne.symm]; exact h.bit5)
  | writeFlags v => exact h.withFlags (by rw [getLsbD_or_alwaysOne, if_pos rfl])
  | putByte v _ ha => exact h.withMem (Memory.wf_write h.memWf ha v)
  | spDown _ hs => exact h.setSp (State.SpInRange.down h.spInRange hs)
  | spUp _ hs => exact h.setSp (State.SpInRange.up h.spInRange hs)

/-! Faults, the advance and the controller's own moves. -/

/-- FAULT is empty where the status is not Faulted (10_state.md R37). -/
theorem State.FaultFits.fault_eq_none (h : s.FaultFits) (hs : s.status ≠ .faulted) : s.fault = none := by
  cases hf : s.fault with
  | none => rfl
  | some f =>
    simp only [State.FaultFits, hf] at h
    exact absurd h.1 hs

/-- A fault leaves a record that fits (60_exceptions.md R242, R243). -/
theorem State.Inv.enterFault (h : s.Inv) (info : FaultInfo) : (s.enterFault info).Inv where
  configWf := h.configWf
  memWf := h.memWf
  bit5 := h.bit5
  spInRange := h.spInRange
  endBound := h.endBound
  endPastHeader := by simp
  faultFits := ⟨rfl, rfl, rfl, rfl⟩

/-- The pc may move while no fault records it. -/
theorem State.Inv.advance (h : s.Inv) (hs : s.status ≠ .faulted) (base : Word) : (s.advance base).Inv where
  configWf := h.configWf
  memWf := h.memWf
  bit5 := h.bit5
  spInRange := h.spInRange
  endBound := h.endBound
  endPastHeader := h.endPastHeader
  faultFits := State.faultFits_of_none (h.faultFits.fault_eq_none hs) hs

theorem State.Inv.halt (h : s.Inv) (hs : s.status = .running) : s.halt.Inv where
  configWf := h.configWf
  memWf := h.memWf
  bit5 := h.bit5
  spInRange := h.spInRange
  endBound := h.endBound
  endPastHeader := fun _ => h.endPastHeader (.inl hs)
  faultFits := State.faultFits_of_none (h.faultFits.fault_eq_none (by simp [hs])) (by simp)

/-- Every instruction of a core that is not Faulted keeps the invariant. -/
theorem exec_inv (hi : exec i s = .next t) (h : s.Inv) (hs : s.status ≠ .faulted) : t.Inv := by
  obtain ⟨u, hu, hend⟩ := exec_next_cases hi
  have hinv : u.Inv := hu.keep Effect.inv h
  obtain ⟨hstatus, -⟩ := hu.controlKept
  obtain ⟨base, rfl⟩ | ⟨info, rfl⟩ := hend
  · exact hinv.advance (hstatus ▸ hs) base
  · exact hinv.enterFault info

/-- A fetch answers the state as it is or a fault (41_cycle.md R128). -/
theorem fetch_cases (s : State) : (∃ bytes, fetch s = .done bytes s) ∨ ∃ info, fetch s = .raised (s.enterFault info) := by
  by_cases hpc : s.pc.toNat + 2 < memSize
  · exact .inl ⟨_, fetch_inside hpc⟩
  · exact .inr ⟨_, fetch_outside (Nat.le_of_not_lt hpc)⟩

theorem dispatch_inv {bytes : Byte × Byte × Byte} (hi : dispatch bytes s = .next t) (h : s.Inv) (hs : s.status ≠ .faulted) :
    t.Inv := by
  unfold dispatch at hi
  split at hi
  · exact exec_inv hi h hs
  · cases hi; exact h.enterFault _

theorem instructionStep_inv (hi : instructionStep s = .next t) (h : s.Inv) (hs : s.status ≠ .faulted) : t.Inv := by
  unfold instructionStep at hi
  obtain ⟨bytes, hf⟩ | ⟨info, hf⟩ := fetch_cases s <;> rw [hf] at hi
  · exact dispatch_inv hi h hs
  · cases hi; exact h.enterFault info

theorem controllerStep_inv (hi : controllerStep s = .next t) (h : s.Inv) : t.Inv := by
  cases hs : s.status with
  | running =>
    simp only [controllerStep, hs] at hi
    split at hi
    · split at hi
      · cases hi; exact h
      · exact instructionStep_inv hi h (by simp [hs])
    · cases hi; exact h.halt hs
  | ready | halted | faulted =>
    simp only [controllerStep, hs] at hi
    cases hi; exact h

/-! Startup (41_cycle.md R121 to R125) and the host's actions. -/

theorem State.Inv.resetForStart (h : s.Inv) (addr : Word) : (s.resetForStart addr).Inv where
  configWf := h.configWf
  memWf := h.memWf
  bit5 := by rw [State.resetForStart_flags]; decide
  spInRange := ⟨Config.spMin_le_spTop h.configWf, Nat.le_refl _⟩
  endBound := Nat.zero_le _
  endPastHeader := by simp
  faultFits := State.faultFits_of_none rfl (by simp)

/-- END is START, the header and a 16-bit length, whatever it was (10_state.md R36). -/
theorem State.Inv.enterRunning (h : s.Inv) (hs : s.status ≠ .faulted) (len : Word) : (s.enterRunning len).Inv where
  configWf := h.configWf
  memWf := h.memWf
  bit5 := h.bit5
  spInRange := h.spInRange
  endBound := by
    have hstart := s.startAddr.isLt
    have hlen := len.isLt
    simp only [State.enterRunning_endAddr, headerSize]
    omega
  endPastHeader := fun _ => Nat.le_add_right _ _
  faultFits := State.faultFits_of_none (h.faultFits.fault_eq_none hs) (by simp)

/-- The header read ends in Running or in a fault (41_cycle.md R124, R125). -/
theorem readHeader_state (s : State) :
    (∃ len, (readHeader s).state = s.enterRunning len) ∨ ∃ info, (readHeader s).state = s.enterFault info := by
  unfold readHeader
  rw [memRead_word, Res.bind_done]
  obtain h1 | ⟨info, h1⟩ := memRead_cases (s.startAddr.toNat + 1) s <;> rw [h1]
  · obtain h2 | ⟨info, h2⟩ := memRead_cases (s.startAddr.toNat + 2) s <;> simp only [Res.bind_done] <;> rw [h2]
    · rw [Res.bind_done]
      split
      · exact .inl ⟨_, rfl⟩
      · exact .inr ⟨_, rfl⟩
    · exact .inr ⟨info, rfl⟩
  · exact .inr ⟨info, rfl⟩

/-- The checks of startup end in Running or in a fault (41_cycle.md R123 to R125). -/
theorem startChecks_state (s : State) :
    (∃ len, (startChecks s).state = s.enterRunning len) ∨ ∃ info, (startChecks s).state = s.enterFault info := by
  unfold startChecks
  split
  · exact readHeader_state s
  · exact .inr ⟨_, rfl⟩

theorem State.Inv.startup (h : s.Inv) (addr : Word) : (startup addr s).Inv := by
  have hr : (s.resetForStart addr).Inv := h.resetForStart addr
  obtain ⟨len, he⟩ | ⟨info, he⟩ := startChecks_state (s.resetForStart addr) <;> rw [Machine.startup, he]
  · exact hr.enterRunning (by simp) len
  · exact hr.enterFault info

theorem State.Inv.startCommand (h : s.Inv) (addr : Option Word) : (startCommand addr s).Inv := by
  unfold Machine.startCommand
  split
  · exact h
  · exact h.startup _

/-! The host's memory operations replace memory, and nothing else (20_memory.md R67). -/

theorem hostLoad_eq_withMem (bytes : List Byte) (addr : Nat) (s : State) :
    hostLoad bytes addr s = { s with mem := (hostLoad bytes addr s).mem } := by
  unfold hostLoad
  split <;> rfl

theorem hostClear_eq_withMem (s : State) : hostClear s = { s with mem := (hostClear s).mem } := by
  unfold hostClear
  split <;> rfl

theorem hostWrite_eq_withMem (addr : Nat) (v : Byte) (s : State) :
    hostWrite addr v s = { s with mem := (hostWrite addr v s).mem } := by
  unfold hostWrite
  split <;> rfl

theorem hostEffect_inv (e : HostEvent) (h : s.Inv) : (hostEffect e s).Inv := by
  cases e with
  | quiet => exact h
  | start addr => exact h.startCommand addr
  | load bytes addr => rw [hostEffect, hostLoad_eq_withMem]; exact h.withMem (hostLoad_mem_wf h.memWf bytes addr)
  | clear => rw [hostEffect, hostClear_eq_withMem]; exact h.withMem (hostClear_mem_wf h.memWf)
  | write addr v => rw [hostEffect, hostWrite_eq_withMem]; exact h.withMem (hostWrite_mem_wf h.memWf addr v)
  | suspendAt pcs => exact h.withHost _

end

/-- Settles O13: a step is the controller's own or the host's next action, and each keeps the invariant. -/
theorem everyStepKeepsTheInvariant : Obligations.EveryStepKeepsTheInvariant := by
  intro s t h hstep
  have htake : s.takeEvent.Inv := h.withHost _
  unfold step machineStep at hstep
  split at hstep
  · exact controllerStep_inv hstep h
  · exact controllerStep_inv hstep htake
  · cases hstep; exact hostEffect_inv _ htake

end Sys2Proof.Machine
end

section
/-! A byte pushed and popped again, and so PHS and then POS (20_memory.md R62, R63; 44_flags_stack.md R183, R184). -/

namespace Sys2Proof.Machine

section
variable {s : State}

/-- The cell SP names exists under R6's constraints (10_state.md R31, 20_memory.md R64). -/
theorem State.StackOk.stackCell_lt (h : s.StackOk) : s.stackCell < memSize := by
  obtain ⟨hc, -, -, htop⟩ := h
  obtain ⟨-, -, -, hfit, -⟩ := (Config.wf_iff _).1 hc
  unfold State.stackCell memSize
  omega

/-- The state a Push that succeeds leaves (20_memory.md R62). -/
def State.pushed (v : Byte) (s : State) : State := (s.putByte s.stackCell v).setSp (s.sp - 1)

/-- Push where there is room (20_memory.md R62). -/
theorem push_eq_pushed (h : s.StackOk) (hs : s.sp ≠ s.config.spMin) (v : Byte) : push v s = .done () (s.pushed v) :=
  push_done hs h.stackCell_lt v

/-- A stack that had room for a byte is not empty after it is pushed (20_memory.md R62, R63). -/
theorem State.SpInRange.pred_ne_spTop (h : s.SpInRange) (hs : s.sp ≠ s.config.spMin) : s.sp - 1 ≠ s.config.spTop := by
  obtain ⟨hmin, htop⟩ := h
  bv_omega

/-- Pop takes a pushed byte back: SP is as it was, and the cell is zeroed (20_memory.md R62, R63). -/
theorem pop_pushed (h : s.StackOk) (hs : s.sp ≠ s.config.spMin) (v : Byte) :
    pop (s.pushed v) = .done v ((s.putByte s.stackCell v).putByte s.stackCell 0) := by
  have ⟨_, hmem, hsp⟩ := h
  have hup : (s.pushed v).setSp ((s.pushed v).sp + 1) = s.putByte s.stackCell v :=
    congrArg (fun p => (s.putByte s.stackCell v).setSp p) (BitVec.sub_add_cancel s.sp 1)
  have hbyte : (s.pushed v).byteAt s.stackCell = v :=
    (State.byteAt_putByte hmem s.stackCell v s.stackCell).trans (if_pos rfl)
  rw [pop_done (State.SpInRange.pred_ne_spTop hsp hs) (by rw [hup]; exact h.stackCell_lt), hup,
    State.putByte_stackCell, hbyte]

/-- The flags after a whole-byte write read as the byte, with bit 5 set (10_state.md R28). -/
@[simp] theorem State.readFlags_writeFlags (s : State) (v : Byte) : (s.writeFlags v).readFlags = v ||| alwaysOne := by
  rw [State.readFlags, State.writeFlags_flags, BitVec.or_assoc, BitVec.or_self]

/-- The flags read with bit 5 set already (10_state.md R28). -/
@[simp] theorem State.readFlags_or_alwaysOne (s : State) : s.readFlags ||| alwaysOne = s.readFlags := by
  rw [State.readFlags, BitVec.or_assoc, BitVec.or_self]

/-- Two writes of one cell leave every other (20_memory.md R48). -/
theorem State.byteAt_putByte_putByte {s : State} (h : s.mem.wf = true) {a : Nat} (ha : a < memSize) (v w : Byte) {n : Nat}
    (hn : n ≠ a) : ((s.putByte a v).putByte a w).byteAt n = s.byteAt n := by
  have hw : (s.putByte a v).mem.wf = true := Memory.wf_write h ha v
  rw [State.byteAt_putByte hw, if_neg hn, State.byteAt_putByte h, if_neg hn]

theorem exec_phs (s : State) : exec .phs s = execPhs s := rfl

theorem exec_pos (s : State) : exec .pos s = execPos s := rfl

/-- PHS where there is room pushes the flags as they read (44_flags_stack.md R183). -/
theorem execPhs_pushed (h : s.StackOk) (hs : s.sp ≠ s.config.spMin) :
    exec .phs s = .next ((s.pushed s.readFlags).advance s.pc) := by
  rw [exec_phs, execPhs, push_eq_pushed h hs]; rfl

/-- POS on a pushed byte writes it to the flags (44_flags_stack.md R184). -/
theorem execPos_pushed (h : s.StackOk) (hs : s.sp ≠ s.config.spMin) (v : Byte) :
    exec .pos (s.pushed v) =
      .next ((((s.putByte s.stackCell v).putByte s.stackCell 0).writeFlags v).advance s.pc) := by
  rw [exec_pos, execPos, pop_pushed h hs]; rfl

/-- The pc and the stack are apart: a Push before the advance is a Push after it. -/
theorem State.advance_pushed (s : State) (v : Byte) (base : Word) :
    (s.pushed v).advance base = (s.advance base).pushed v := rfl

end

/-- Settles O46: POS finds the byte PHS pushed, which holds the flags as they read; the pc moves on between the two. -/
theorem posAfterPhsRestoresTheFlags : Obligations.PosAfterPhsRestoresTheFlags := by
  intro s h hs
  have hok : (s.advance s.pc).StackOk := h
  have ⟨_, hmem, _⟩ := hok
  have hpos := execPos_pushed hok hs s.readFlags
  rw [← State.advance_pushed] at hpos
  refine ⟨_, _, execPhs_pushed h hs, hpos, ?flags, ?pc, ⟨?regs, ?bits, ?cells, ?control⟩, ?sp⟩
  case flags => simp
  case pc => exact BitVec.add_assoc s.pc 3 3
  case regs => exact fun r _ => by simp
  case bits => exact fun j _ _ => by simp
  case cells =>
    intro a ha
    rw [State.advance_byteAt, State.writeFlags_byteAt,
      State.byteAt_putByte_putByte hmem hok.stackCell_lt _ _ (List.ne_of_not_mem_cons ha), State.advance_byteAt]
  case control => simp [ControlKept]
  case sp => simp

end Sys2Proof.Machine
end

section
/-! Bytes and words as numbers (20_memory.md R50), and the frames of the shared updates. -/

namespace Sys2Proof.Machine

/-- The high byte as a number (20_memory.md R50). -/
theorem toNat_hiByte (w : Word) : (hiByte w).toNat = w.toNat / 256 := by
  have hw := w.isLt
  rw [hiByte, BitVec.extractLsb'_toNat, Nat.shiftRight_eq_div_pow]
  omega

/-- The low byte as a number (20_memory.md R50). -/
theorem toNat_loByte (w : Word) : (loByte w).toNat = w.toNat % 256 := by
  rw [loByte, BitVec.extractLsb'_toNat, Nat.shiftRight_zero]

/-- A word put together from its bytes, the high one first (20_memory.md R50). -/
theorem toNat_wordOf (h l : Byte) : (wordOf h l).toNat = 256 * h.toNat + l.toNat := by
  rw [wordOf, BitVec.toNat_append, ← Nat.shiftLeft_add_eq_or_of_lt l.isLt, Nat.shiftLeft_eq, Nat.mul_comm]

/-- The common advance as a number (41_cycle.md R133). -/
theorem toNat_add_instrWidth (base : Word) : (base + instrWidth).toNat = (base.toNat + 3) % 65536 :=
  BitVec.toNat_add base instrWidth

section
variable {rs rs' : List Reg} {bs bs' as as' : List Nat} {s t u : State}

/-- What two updates in a row leave: all but what either may change. -/
theorem StackFrame.trans (hst : StackFrame rs bs as s t) (htu : StackFrame rs' bs' as' t u) :
    StackFrame (rs ++ rs') (bs ++ bs') (as ++ as') s u := by
  obtain ⟨hreg, hflag, hcell, hctl⟩ := hst
  obtain ⟨hreg', hflag', hcell', hctl'⟩ := htu
  simp only [StackFrame, RegsKept, FlagsKept, CellsKept, List.mem_append, not_or]
  exact ⟨fun r ⟨hr, hr'⟩ => (hreg' r hr').trans (hreg r hr),
    fun j hj ⟨hb, hb'⟩ => (hflag' j hj hb').trans (hflag j hj hb),
    fun a ⟨ha, ha'⟩ => (hcell' a ha').trans (hcell a ha), hctl.trans hctl'⟩

/-- A frame may name more cells than it needs. -/
theorem StackFrame.cells_mono (h : StackFrame rs bs as s t) (hsub : as ⊆ as') : StackFrame rs bs as' s t := by
  obtain ⟨hreg, hflag, hcell, hctl⟩ := h
  exact ⟨hreg, hflag, fun a ha => hcell a fun hmem => ha (hsub hmem), hctl⟩

/-- The advance writes the pc alone (41_cycle.md R133). -/
theorem StackFrame.advance (h : StackFrame rs bs as s t) (base : Word) : StackFrame rs bs as s (t.advance base) := by
  obtain ⟨hreg, hflag, hcell, hctl⟩ := h
  exact ⟨fun r hr => (State.advance_reg t base r).trans (hreg r hr), hflag, hcell, hctl⟩

end

/-- A register write changes that register alone. -/
theorem State.setReg_stackFrame (s : State) (r : Reg) (v : Byte) : StackFrame [r] [] [] s (s.setReg r v) :=
  ⟨fun _ hq => State.setReg_reg_other s v (List.ne_of_not_mem_cons hq), fun _ _ _ => by simp, fun _ _ => by simp,
    by simp [ControlKept]⟩

/-- SetNZ changes N and Z alone (40_alu.md R111). -/
theorem State.setNZ_stackFrame (s : State) (v : Byte) : StackFrame [] [7, 1] [] s (s.setNZ v) := by
  refine ⟨fun _ _ => by simp, fun j _ hj => ?_, fun _ _ => by simp, by simp [ControlKept]⟩
  simp only [List.mem_cons, not_or] at hj
  obtain ⟨h7, h1, -⟩ := hj
  rw [State.setNZ_bit, if_neg h1, if_neg h7]

/-- A byte stored changes its cell alone (20_memory.md R48). -/
theorem State.putByte_stackFrame {s : State} (h : s.mem.wf = true) (a : Nat) (v : Byte) :
    StackFrame [] [] [a] s (s.putByte a v) :=
  ⟨fun _ _ => by simp, fun _ _ _ => rfl,
    fun n hn => by rw [State.byteAt_putByte h, if_neg (List.ne_of_not_mem_cons hn)], by simp [ControlKept]⟩

/-- SP written: no register, flag or cell changes (10_state.md R31). -/
theorem State.setSp_stackFrame (s : State) (p : Byte) : StackFrame [] [] [] s (s.setSp p) :=
  ⟨fun _ _ => by simp, fun _ _ _ => rfl, fun _ _ => rfl, rfl, rfl, rfl, rfl, rfl, rfl⟩

end Sys2Proof.Machine
end

section
/-! The stack engine on a stack in range: what one Push and one Pop leave, and any sequence of pushes (20_memory.md R62 to
R64). -/

namespace Sys2Proof.Machine

section
variable {s : State}

/-- A stack that is not full has SP above SP_MIN (20_memory.md R64). -/
theorem State.SpInRange.spMin_lt (h : s.SpInRange) (hs : s.sp ≠ s.config.spMin) : s.config.spMin.toNat < s.sp.toNat :=
  Nat.lt_of_le_of_ne h.1 fun he => hs (BitVec.eq_of_toNat_eq he.symm)

/-- A stack that is not empty has SP below SP_TOP (20_memory.md R64). -/
theorem State.SpInRange.lt_spTop (h : s.SpInRange) (hs : s.sp ≠ s.config.spTop) : s.sp.toNat < s.config.spTop.toNat :=
  Nat.lt_of_le_of_ne h.2 fun he => hs (BitVec.eq_of_toNat_eq he)

/-- Push where there is room, the room as a number (20_memory.md R62). -/
theorem push_of_room (h : s.StackOk) (hs : s.config.spMin.toNat < s.sp.toNat) (v : Byte) :
    push v s = .done () (s.pushed v) :=
  push_eq_pushed h (fun he => Nat.ne_of_gt hs (congrArg BitVec.toNat he)) v

theorem State.pushed_sp_toNat (hs : s.config.spMin.toNat < s.sp.toNat) (v : Byte) :
    (s.pushed v).sp.toNat = s.sp.toNat - 1 := by
  show (s.sp - 1).toNat = _
  bv_omega

/-- After a Push SP names the cell below (20_memory.md R62). -/
theorem State.pushed_stackCell (hs : s.config.spMin.toNat < s.sp.toNat) (v : Byte) :
    (s.pushed v).stackCell = s.stackCell - 1 := by
  show s.config.stackBase.toNat + (s.pushed v).sp.toNat = s.config.stackBase.toNat + s.sp.toNat - 1
  rw [State.pushed_sp_toNat hs]
  omega

/-- A Push stores its byte in the cell SP named (20_memory.md R62). -/
theorem State.pushed_byteAt (h : s.mem.wf = true) (v : Byte) (n : Nat) :
    (s.pushed v).byteAt n = if n = s.stackCell then v else s.byteAt n := State.byteAt_putByte h s.stackCell v n

/-- A Push changes the cell SP named and SP alone (20_memory.md R62). -/
theorem State.pushed_stackFrame (h : s.mem.wf = true) (v : Byte) : StackFrame [] [] [s.stackCell] s (s.pushed v) :=
  (State.putByte_stackFrame h s.stackCell v).trans (State.setSp_stackFrame _ (s.sp - 1))

/-- A Push keeps the stack in range (20_memory.md R64). -/
theorem State.StackOk.pushed (h : s.StackOk) (hs : s.config.spMin.toNat < s.sp.toNat) (v : Byte) : (s.pushed v).StackOk := by
  have ⟨hconfig, hmem, hmin, htop⟩ := h
  have hsp := State.pushed_sp_toNat hs v
  refine ⟨hconfig, Memory.wf_write hmem h.stackCell_lt v, ?_, ?_⟩
  · show s.config.spMin.toNat ≤ _
    omega
  · show _ ≤ s.config.spTop.toNat
    omega

/-- Room for two bytes is room for one after a Push (20_memory.md R62, R64). -/
theorem State.pushed_room (hroom : s.config.spMin.toNat + 2 ≤ s.sp.toNat) (v : Byte) :
    (s.pushed v).config.spMin.toNat < (s.pushed v).sp.toNat := by
  have hsp := State.pushed_sp_toNat (s := s) (by omega) v
  show s.config.spMin.toNat < _
  omega

/-- The state a Pop that succeeds leaves (20_memory.md R63). -/
def State.popped (s : State) : State := (s.setSp (s.sp + 1)).putByte (s.stackCell + 1) 0

theorem State.popped_sp_toNat (hs : s.sp.toNat < s.config.spTop.toNat) : s.popped.sp.toNat = s.sp.toNat + 1 := by
  show (s.sp + 1).toNat = _
  have := s.config.spTop.isLt
  bv_omega

/-- After a Pop SP names the cell above (20_memory.md R63). -/
theorem State.popped_stackCell (hs : s.sp.toNat < s.config.spTop.toNat) : s.popped.stackCell = s.stackCell + 1 :=
  congrArg (s.config.stackBase.toNat + ·) (State.popped_sp_toNat hs)

/-- The cell a Pop reads exists (20_memory.md R46, R64). -/
theorem State.StackOk.stackCell_succ_lt (h : s.StackOk) (hs : s.sp.toNat < s.config.spTop.toNat) :
    s.stackCell + 1 < memSize := by
  obtain ⟨hc, -, -, -⟩ := h
  obtain ⟨-, -, -, hfit, -⟩ := (Config.wf_iff _).1 hc
  unfold State.stackCell memSize
  omega

/-- Pop where there is a byte (20_memory.md R63). -/
theorem pop_eq_popped (h : s.StackOk) (hs : s.sp.toNat < s.config.spTop.toNat) :
    pop s = .done (s.byteAt (s.stackCell + 1)) s.popped := by
  have hcell : (s.setSp (s.sp + 1)).stackCell = s.stackCell + 1 := State.popped_stackCell hs
  have hne : s.sp ≠ s.config.spTop := fun he => Nat.ne_of_lt hs (congrArg BitVec.toNat he)
  rw [pop_done hne (hcell ▸ h.stackCell_succ_lt hs), hcell, State.popped]

/-- A Pop zeroes the cell it vacates (20_memory.md R63). -/
theorem State.popped_byteAt (h : s.mem.wf = true) (n : Nat) :
    s.popped.byteAt n = if n = s.stackCell + 1 then 0 else s.byteAt n :=
  State.byteAt_putByte (s := s.setSp (s.sp + 1)) h (s.stackCell + 1) 0 n

/-- A Pop changes the cell above SP and SP alone (20_memory.md R63). -/
theorem State.popped_stackFrame (h : s.mem.wf = true) : StackFrame [] [] [s.stackCell + 1] s s.popped :=
  (State.setSp_stackFrame s (s.sp + 1)).trans (State.putByte_stackFrame h (s.stackCell + 1) 0)

/-- A Pop keeps the stack in range (20_memory.md R64). -/
theorem State.StackOk.popped (h : s.StackOk) (hs : s.sp.toNat < s.config.spTop.toNat) : s.popped.StackOk := by
  have ⟨hconfig, hmem, hmin, htop⟩ := h
  have hsp := State.popped_sp_toNat hs
  refine ⟨hconfig, Memory.wf_write hmem (h.stackCell_succ_lt hs) 0, ?_, ?_⟩
  · show s.config.spMin.toNat ≤ _
    omega
  · show _ ≤ s.config.spTop.toNat
    omega

/-- Of two bytes on the stack one is left after a Pop (20_memory.md R63). -/
theorem State.popped_left (hbytes : s.sp.toNat + 2 ≤ s.config.spTop.toNat) :
    s.popped.sp.toNat < s.popped.config.spTop.toNat := by
  have hsp := State.popped_sp_toNat (s := s) (by omega)
  show _ < s.config.spTop.toNat
  omega

end

/-- Settles O28: the pushed byte is popped again, and its cell, written twice, is the only one that changed. -/
theorem popReturnsThePushedByte : Obligations.PopReturnsThePushedByte := by
  intro s v h hs
  have ⟨_, hmem, _⟩ := h
  have hput : (s.putByte s.stackCell v).mem.wf = true := Memory.wf_write hmem h.stackCell_lt v
  refine ⟨_, _, push_eq_pushed h hs v, rfl, ?stored, pop_pushed h hs v, rfl, ?zeroed, rfl, ?frame⟩
  case stored => rw [State.pushed_byteAt hmem, if_pos rfl]
  case zeroed => rw [State.byteAt_putByte hput, if_pos rfl]
  case frame =>
    exact ((State.putByte_stackFrame hmem s.stackCell v).trans (State.putByte_stackFrame hput s.stackCell 0)).cells_mono
      (by simp)

/-- A byte sequence that fits the free part of the stack is pushed whole, the first byte topmost, and the cells above it are
as they were (20_memory.md R62, R64). -/
theorem pushAll_fits (vs : List Byte) {s : State} (h : s.StackOk)
    (hfit : s.config.spMin.toNat + vs.length ≤ s.sp.toNat) :
    ∃ t, pushAll vs s = .done () t ∧ t.sp.toNat = s.sp.toNat - vs.length ∧
      (∀ n, s.stackCell < n → t.byteAt n = s.byteAt n) ∧
      ∀ k, k < vs.length → t.byteAt (s.stackCell - k) = vs.getD k 0 := by
  induction vs generalizing s with
  | nil => exact ⟨s, rfl, rfl, fun _ _ => rfl, fun _ hk => absurd hk (Nat.not_lt_zero _)⟩
  | cons v vs ih =>
    rw [List.length_cons] at hfit
    have ⟨_, hmem, _⟩ := h
    have hroom : s.config.spMin.toNat < s.sp.toNat := by omega
    have hsp := State.pushed_sp_toNat hroom v
    have hcell := State.pushed_stackCell hroom v
    have hpos : 0 < s.stackCell := by unfold State.stackCell; omega
    obtain ⟨t, ht, htsp, habove, hbytes⟩ := ih (h.pushed hroom v) (by show s.config.spMin.toNat + _ ≤ _; omega)
    rw [hcell] at habove hbytes
    refine ⟨t, ?run, ?sp, ?above, ?bytes⟩
    case run => rw [pushAll, push_of_room h hroom, Res.bind_done, ht]
    case sp => rw [htsp, hsp, List.length_cons]; omega
    case above =>
      intro n hn
      rw [habove n (by omega), State.pushed_byteAt hmem, if_neg (by omega)]
    case bytes =>
      intro k hk
      cases k with
      | zero => rw [Nat.sub_zero, habove _ (by omega), State.pushed_byteAt hmem, if_pos rfl, List.getD_cons_zero]
      | succ k =>
        rw [show s.stackCell - (k + 1) = s.stackCell - 1 - k by omega, List.getD_cons_succ]
        exact hbytes k (Nat.lt_of_succ_lt_succ hk)

/-- A byte sequence longer than the free part of the stack fills it and then faults (20_memory.md R62, R64). -/
theorem pushAll_overflows (vs : List Byte) {s : State} (h : s.StackOk)
    (hover : s.sp.toNat < s.config.spMin.toNat + vs.length) :
    ∃ t : State, pushAll vs s = .raised (t.enterFault .push) ∧ t.pc = s.pc ∧ t.sp = s.config.spMin := by
  induction vs generalizing s with
  | nil =>
    obtain ⟨-, -, hmin, -⟩ := h
    exact absurd hmin (Nat.not_le_of_lt hover)
  | cons v vs ih =>
    by_cases hs : s.sp = s.config.spMin
    · exact ⟨s, by rw [pushAll, push_full hs, Res.bind_raised], rfl, hs⟩
    · rw [List.length_cons] at hover
      have ⟨_, _, hrange⟩ := h
      have hroom := State.SpInRange.spMin_lt hrange hs
      have hsp := State.pushed_sp_toNat hroom v
      obtain ⟨t, ht, hpc, htsp⟩ := ih (h.pushed hroom v) (by show _ < s.config.spMin.toNat + _; omega)
      exact ⟨t, by rw [pushAll, push_eq_pushed h hs, Res.bind_done, ht], hpc, htsp⟩

/-- Settles O29: from SP_TOP the free part of the stack is STACK_CAPACITY bytes. -/
theorem exactlyCapacityPushesSucceed : Obligations.ExactlyCapacityPushesSucceed := by
  intro s vs hconfig hmem hs
  have hmin := Config.spMin_toNat hconfig
  obtain ⟨-, -, -, -, -, -, hcap⟩ := (Config.wf_iff _).1 hconfig
  have hsp : s.sp.toNat = s.config.spTop.toNat := congrArg BitVec.toNat hs
  have hok : s.StackOk := ⟨hconfig, hmem, by omega, by omega⟩
  refine ⟨fun hfit => ?fits, fun hover => ?overflows⟩
  case fits =>
    obtain ⟨t, ht, htsp, -, hbytes⟩ := pushAll_fits vs hok (by omega)
    rw [State.stackCell, hsp] at hbytes
    exact ⟨t, ht, htsp.trans (congrArg (· - _) hsp), hbytes⟩
  case overflows =>
    obtain ⟨t, ht, hpc, htsp⟩ := pushAll_overflows vs hok (by omega)
    exact ⟨_, ht, rfl, by rw [State.enterFault_fault, hpc]; rfl, htsp⟩

end Sys2Proof.Machine
end

section
/-! The instructions of the stack engine: calls, returns and POA (43_control.md R162, R163; 44_flags_stack.md R186). -/

namespace Sys2Proof.Machine

theorem exec_jfn (addr : Word) (s : State) : exec (.jfn addr) s = execJfn addr s := rfl

theorem exec_ret (s : State) : exec .ret s = execRet s := rfl

theorem exec_poa (s : State) : exec .poa s = execPoa s := rfl

section
variable {s : State}

/-- JFN after its first Push: the second Push, the jump and the advance (43_control.md R162). -/
theorem execJfn_firstPush (h : s.StackOk) (hs : s.config.spMin.toNat < s.sp.toNat) (addr : Word) :
    exec (.jfn addr) s =
      finish ((push (loByte s.pc) (s.pushed (hiByte s.pc))).bind fun _ t => .done addr t) := by
  rw [exec_jfn, execJfn, push_of_room h hs, Res.bind_done]

/-- JFN where there is room for its address (43_control.md R162). -/
theorem execJfn_pushed (h : s.StackOk) (hroom : s.config.spMin.toNat + 2 ≤ s.sp.toNat) (addr : Word) :
    exec (.jfn addr) s = .next (((s.pushed (hiByte s.pc)).pushed (loByte s.pc)).advance addr) := by
  have hs : s.config.spMin.toNat < s.sp.toNat := by omega
  rw [execJfn_firstPush h hs, push_of_room (h.pushed hs _) (State.pushed_room hroom _), Res.bind_done, finish_done]

/-- RET after its first Pop: the second Pop, the return and the advance (43_control.md R163). -/
theorem execRet_firstPop (h : s.StackOk) (hs : s.sp.toNat < s.config.spTop.toNat) :
    exec .ret s =
      finish ((pop s.popped).bind fun hi t => .done (wordOf hi (s.byteAt (s.stackCell + 1))) t) := by
  rw [exec_ret, execRet, pop_eq_popped h hs, Res.bind_done]

/-- RET where there is an address on the stack (43_control.md R163). -/
theorem execRet_popped (h : s.StackOk) (hbytes : s.sp.toNat + 2 ≤ s.config.spTop.toNat) :
    exec .ret s =
      .next (s.popped.popped.advance (wordOf (s.byteAt (s.stackCell + 2)) (s.byteAt (s.stackCell + 1)))) := by
  have hs : s.sp.toNat < s.config.spTop.toNat := by omega
  have ⟨_, hmem, _⟩ := h
  rw [execRet_firstPop h hs, pop_eq_popped (h.popped hs) (State.popped_left hbytes), Res.bind_done, finish_done,
    State.popped_stackCell hs, State.popped_byteAt hmem, if_neg (by omega)]

/-- POA where there is a byte: A, then N and Z, from the byte popped (44_flags_stack.md R186). -/
theorem execPoa_popped (h : s.StackOk) (hs : s.sp.toNat < s.config.spTop.toNat) :
    exec .poa s =
      .next (((s.popped.setReg .a (s.byteAt (s.stackCell + 1))).setNZ (s.byteAt (s.stackCell + 1))).advance s.pc) := by
  rw [exec_poa, execPoa, pop_eq_popped h hs, loadInto_done]; rfl

end

/-- Settles O36: two Pushes where there is room for both, the second in the cell below the first. -/
theorem jfnPushesItsAddressAndJumps : Obligations.JfnPushesItsAddressAndJumps := by
  intro addr s h hroom
  have hs : s.config.spMin.toNat < s.sp.toNat := by omega
  have hpos : 0 < s.stackCell := by unfold State.stackCell; omega
  have hcell := State.pushed_stackCell hs (hiByte s.pc)
  have ⟨_, hmem, _⟩ := h
  have ⟨_, hmem', _⟩ := h.pushed hs (hiByte s.pc)
  have hlo := State.pushed_stackFrame hmem' (loByte s.pc)
  rw [hcell] at hlo
  refine ⟨_, execJfn_pushed h hroom addr, ?high, ?low, ?sp, toNat_add_instrWidth addr, ?frame⟩
  case high =>
    rw [State.advance_byteAt, State.pushed_byteAt hmem', hcell, if_neg (by omega), State.pushed_byteAt hmem, if_pos rfl,
      toNat_hiByte]
  case low => rw [State.advance_byteAt, State.pushed_byteAt hmem', hcell, if_pos rfl, toNat_loByte]
  case sp =>
    rw [State.advance_sp, State.pushed_sp_toNat (State.pushed_room hroom _), State.pushed_sp_toNat hs, Nat.sub_sub]
  case frame => exact StackFrame.advance ((State.pushed_stackFrame hmem (hiByte s.pc)).trans hlo) addr

/-- Settles O37: the first Push faults, or the second with the first Push done. -/
theorem jfnFaultsOnAFullStack : Obligations.JfnFaultsOnAFullStack := by
  refine fun addr s => ⟨fun hfull => ?none, fun h hone => ?one⟩
  case none => rw [exec_jfn, execJfn, push_full hfull]; rfl
  case one =>
    have hs : s.config.spMin.toNat < s.sp.toNat := by omega
    have hsp : s.sp - 1 = s.config.spMin :=
      BitVec.eq_of_toNat_eq ((State.pushed_sp_toNat hs 0).trans (by omega))
    have hpushed : s.pushed (hiByte s.pc) =
        { s with mem := s.mem.write s.stackCell (hiByte s.pc), sp := s.config.spMin } := by rw [← hsp]; rfl
    rw [execJfn_firstPush h hs, push_full hsp, hpushed]; rfl

/-- Settles O38: two Pops where there is a byte for each, the second from the cell above the first. -/
theorem retPopsAnAddressAndGoesOnAfterIt : Obligations.RetPopsAnAddressAndGoesOnAfterIt := by
  intro s h hbytes
  have hs : s.sp.toNat < s.config.spTop.toNat := by omega
  have hcell := State.popped_stackCell hs
  have ⟨_, hmem, _⟩ := h
  have ⟨_, hmem', _⟩ := h.popped hs
  have hhi := State.popped_stackFrame hmem'
  rw [hcell] at hhi
  refine ⟨_, execRet_popped h hbytes, ?pc, ?low, ?high, ?sp, ?frame⟩
  case pc => rw [State.advance_pc, toNat_add_instrWidth, toNat_wordOf]
  case low =>
    rw [State.advance_byteAt, State.popped_byteAt hmem', hcell, if_neg (by omega), State.popped_byteAt hmem, if_pos rfl]
  case high => rw [State.advance_byteAt, State.popped_byteAt hmem', hcell, if_pos rfl]
  case sp => rw [State.advance_sp, State.popped_sp_toNat (State.popped_left hbytes), State.popped_sp_toNat hs]
  case frame => exact StackFrame.advance ((State.popped_stackFrame hmem).trans hhi) _

/-- Settles O39: the first Pop faults, or the second with the first Pop done. -/
theorem retFaultsOnAShortStack : Obligations.RetFaultsOnAShortStack := by
  refine fun s => ⟨fun hempty => ?none, fun h hone => ?one⟩
  case none => rw [exec_ret, execRet, pop_empty hempty]; rfl
  case one =>
    have hs : s.sp.toNat < s.config.spTop.toNat := by omega
    have hsp : s.sp + 1 = s.config.spTop := BitVec.eq_of_toNat_eq ((State.popped_sp_toNat hs).trans hone)
    have hpopped : s.popped = { s with mem := s.mem.write (s.stackCell + 1) 0, sp := s.config.spTop } := by
      rw [← hsp]; rfl
    rw [execRet_firstPop h hs, pop_empty hsp, hpopped]; rfl

/-- Settles O45: one Pop, a register write, SetNZ and the advance; an empty stack faults at the Pop. -/
theorem poaPopsIntoAAndSetsNZ : Obligations.PoaPopsIntoAAndSetsNZ := by
  refine ⟨fun _ _ => rfl, fun s h hne => ?pops, fun s hempty => ?empty⟩
  case pops =>
    have ⟨_, hmem, hrange⟩ := h
    have hs := State.SpInRange.lt_spTop hrange hne
    refine ⟨_, execPoa_popped h hs, rfl, ?n, ?z, ?zeroed, rfl, rfl, ?frame⟩
    case n => rw [State.advance_flagN, State.setNZ_flagN]; rfl
    case z => rw [State.advance_flagZ, State.setNZ_flagZ]; rfl
    case zeroed =>
      rw [State.advance_byteAt, State.setNZ_byteAt, State.setReg_byteAt, State.popped_byteAt hmem, if_pos rfl]
    case frame =>
      exact StackFrame.advance (((State.popped_stackFrame hmem).trans (State.setReg_stackFrame _ .a _)).trans
        (State.setNZ_stackFrame _ _)) _
  case empty => rw [exec_poa, execPoa, pop_empty hempty]; rfl

end Sys2Proof.Machine
end

section
/-! Memory accesses, the fetch at the top of the space, and the host's side of memory (20_memory.md R46 to R48, R66, R67;
41_cycle.md R120, R128). -/

namespace Sys2Proof.Machine

/-- Settles O27: inside the space a write and then a read, outside it a fault of each. -/
theorem memReadReturnsTheLastMemWrite : Obligations.MemReadReturnsTheLastMemWrite := by
  refine ⟨fun s addr v h haddr => ?inside, fun s addr v haddr => ⟨memRead_outside haddr s, memWrite_outside haddr v s⟩⟩
  case inside =>
    refine ⟨_, memWrite_inside haddr v s, Memory.wf_write h haddr v, ?same,
      fun n hn hne => ⟨s.byteAt n, memRead_inside hn s, ?other⟩⟩
    case same => rw [memRead_inside haddr, State.byteAt_putByte h, if_pos rfl]
    case other => rw [memRead_inside hn, State.byteAt_putByte h, if_neg hne]

/-- Settles O9: one of the three bytes lies at 0x10000, the first address outside. -/
theorem fetchPastTheTopFaults : Obligations.FetchPastTheTopFaults := by
  intro s hat hpc
  have htop : memSize ≤ s.pc.toNat + 2 := by unfold memSize; omega
  rw [step_atInstruction hat, instructionStep, fetch_outside htop]; rfl

/-- The host may access memory exactly while the core is not Running (20_memory.md R67). -/
theorem State.hostMayAccess_eq_true {s : State} (h : s.status ≠ .running) : s.hostMayAccess = true := decide_eq_true h

theorem State.hostMayAccess_eq_false {s : State} (h : s.status = .running) : s.hostMayAccess = false :=
  decide_eq_false (not_not_intro h)

/-- What fits the space: the empty sequence, and one with its last byte inside (20_memory.md R67; log 13). -/
theorem fitsSpace_iff (bytes : List Byte) (addr : Nat) :
    fitsSpace bytes addr = true ↔ bytes = [] ∨ addr + bytes.length ≤ memSize := by
  rw [fitsSpace, Bool.or_eq_true, List.isEmpty_iff, decide_eq_true_eq]

/-- A load that is allowed and fits stores its bytes (20_memory.md R67). -/
theorem hostLoad_accepted {bytes : List Byte} {addr : Nat} {s : State} (hmay : s.hostMayAccess = true)
    (hfits : fitsSpace bytes addr = true) : hostLoad bytes addr s = { s with mem := s.mem.load addr bytes } :=
  if_pos (by rw [hmay, hfits]; rfl)

/-- A load of a Running core, or one that does not fit, changes nothing (20_memory.md R67). -/
theorem hostLoad_refused {bytes : List Byte} {addr : Nat} {s : State}
    (h : ¬ (s.hostMayAccess = true ∧ fitsSpace bytes addr = true)) : hostLoad bytes addr s = s :=
  if_neg (by rwa [Bool.and_eq_true])

/-- Settles O59: a load that fits stores its bytes, one that does not is refused, and clear leaves no cell. -/
theorem hostLoadAndClearSetMemory : Obligations.HostLoadAndClearSetMemory := by
  intro s hs hmem
  have hmay := State.hostMayAccess_eq_true hs
  refine ⟨fun bytes addr hfit => ?load, fun bytes addr hne hout => ?refused, [], ?clear, fun _ => rfl⟩
  case load =>
    exact ⟨s.mem.load addr bytes, hostLoad_accepted hmay ((fitsSpace_iff bytes addr).2 (.inr hfit)),
      Memory.wf_load hmem addr bytes hfit, Memory.read_load hmem addr bytes hfit⟩
  case refused =>
    refine hostLoad_refused fun ⟨_, hfits⟩ => ?_
    obtain rfl | hfit := (fitsSpace_iff bytes addr).1 hfits
    · exact hne rfl
    · exact Nat.not_le_of_lt hout hfit
  case clear => rw [hostClear, if_pos hmay]

/-- Settles O30: the bounds of Peek, each with one side's strictness moved to the other. -/
theorem peekReadsOnlyStackCells : Obligations.PeekReadsOnlyStackCells := fun _ _ =>
  if_congr (and_congr Nat.succ_le_iff Nat.lt_succ_iff.symm) rfl rfl

/-- A start command and each memory operation leave a Running core as it is (41_cycle.md R120, 20_memory.md R67). -/
theorem hostEffect_of_running {s : State} (h : s.status = .running) {e : HostEvent} (hsuspend : ∀ pcs, e ≠ .suspendAt pcs) :
    hostEffect e s = s := by
  have hmay := State.hostMayAccess_eq_false h
  cases e with
  | quiet => rfl
  | start addr => exact if_pos h
  | load bytes addr => exact hostLoad_refused fun ⟨hfree, _⟩ => Bool.false_ne_true (hmay.symm.trans hfree)
  | clear => rw [hostEffect, hostClear, hmay]; rfl
  | write addr v => rw [hostEffect, hostWrite, hmay]; rfl
  | suspendAt pcs => exact absurd rfl (hsuspend pcs)

/-- The host's actions with the first one taken off (log 2). -/
theorem State.takeEvent_eq {s : State} {e : HostEvent} {rest : List HostEvent} (he : s.host.events = e :: rest) :
    s.takeEvent = { s with host := { s.host with events := rest } } := by
  rw [State.takeEvent, he]; rfl

/-- A step with an action of the host due takes it off and has its effect, unless it is `quiet` (log 2). -/
theorem step_hostEvent {s : State} {e : HostEvent} {rest : List HostEvent} (he : s.host.events = e :: rest)
    (hq : e ≠ .quiet) : step s = .next (hostEffect e s.takeEvent) := by
  rw [step, machineStep, he]
  cases e with
  | quiet => exact absurd rfl hq
  | _ => rfl

/-- Settles O58: the action is taken off, and none of these has an effect on a Running core. -/
theorem runningCoreIgnoresStartAndMemoryOperations : Obligations.RunningCoreIgnoresStartAndMemoryOperations := by
  intro s e rest hs he hq hsuspend
  have hrun : s.takeEvent.status = .running := hs
  rw [step_hostEvent he hq, hostEffect_of_running hrun hsuspend, State.takeEvent_eq he]

end Sys2Proof.Machine
end

section
/-! The operand bytes, said once for each addressing mode: what a mode reads from a1 and a2, what it writes back, and that the
one undoes the other (30_encoding.md R72 to R76, R94). -/

namespace Sys2Proof

open Machine Laws

/-- What an addressing mode takes from a1 and a2 (30_encoding.md R72). -/
@[reducible] def Mode.Operand : Mode → Type
  | .imp | .acc => Unit
  | .imm | .rel | .idx => Byte
  | .abs | .ind => Word
  | .reg => Reg × Reg

/-- The operand a mode reads from a1 and a2; only MOV's register indices can fail (30_encoding.md R72, R86). -/
def Mode.read : (m : Mode) → Byte → Byte → Option m.Operand
  | .imp, _, _ | .acc, _, _ => some ()
  | .imm, a1, _ | .rel, a1, _ => some a1
  | .idx, _, a2 => some a2
  | .abs, a1, a2 | .ind, a1, a2 => some (wordOf a1 a2)
  | .reg, a1, a2 => (regOfIndex a1).bind fun src => (regOfIndex a2).map fun dst => (src, dst)

/-- The bytes a1 and a2 that a mode's operand is written as (30_encoding.md R94). -/
def Mode.write : (m : Mode) → m.Operand → Byte × Byte
  | .imp, _ | .acc, _ => (0, 0)
  | .imm, v | .rel, v => (v, 0)
  | .idx, zp => (0, zp)
  | .abs, addr | .ind, addr => (hiByte addr, loByte addr)
  | .reg, (src, dst) => (regIndex src, regIndex dst)

theorem Mode.read_reg_eq_some {a1 a2 : Byte} {v : Reg × Reg} :
    Mode.reg.read a1 a2 = some v ↔ regOfIndex a1 = some v.1 ∧ regOfIndex a2 = some v.2 := by
  simp [Mode.read, Option.bind_eq_some_iff, Prod.ext_iff]

/-- The bytes an operand is written as read as that operand (30_encoding.md R72, R94). -/
theorem Mode.read_write (m : Mode) (v : m.Operand) : m.read (m.write v).1 (m.write v).2 = some v := by
  cases m with
  | imp | acc | imm | rel | idx => rfl
  | abs | ind => exact congrArg some (wordOf_hiByte_loByte v)
  | reg => exact Mode.read_reg_eq_some.2 ⟨regOfIndex_regIndex v.1, regOfIndex_regIndex v.2⟩

/-- Each byte a mode uses is written back as it was read (30_encoding.md R72). -/
theorem Mode.write_of_read {m : Mode} {a1 a2 : Byte} {v : m.Operand} (h : m.read a1 a2 = some v) :
    (usesA1 m = true → (m.write v).1 = a1) ∧ (usesA2 m = true → (m.write v).2 = a2) := by
  cases m with
  | imp | acc => exact ⟨nofun, nofun⟩
  | imm | rel => cases h; exact ⟨fun _ => rfl, nofun⟩
  | idx => cases h; exact ⟨nofun, fun _ => rfl⟩
  | abs | ind => cases h; exact ⟨fun _ => hiByte_wordOf a1 a2, fun _ => loByte_wordOf a1 a2⟩
  | reg =>
    obtain ⟨h1, h2⟩ := Mode.read_reg_eq_some.1 h
    exact ⟨fun _ => regIndex_of_regOfIndex h1, fun _ => regIndex_of_regOfIndex h2⟩

/-- What a mode reads depends on the bytes it uses and on no other (30_encoding.md R76). -/
theorem Mode.read_congr {m : Mode} {a1 a2 b1 b2 : Byte} (h1 : usesA1 m = true → a1 = b1) (h2 : usesA2 m = true → a2 = b2) :
    m.read a1 a2 = m.read b1 b2 := by
  cases m with
  | imp | acc => rfl
  | imm | rel => exact congrArg some (h1 rfl)
  | idx => exact congrArg some (h2 rfl)
  | abs | ind | reg => rw [h1 rfl, h2 rfl]

/-- A byte a mode does not use is written as 0 (30_encoding.md R76). -/
theorem Mode.write_unused (m : Mode) (v : m.Operand) :
    (usesA1 m = false → (m.write v).1 = 0) ∧ (usesA2 m = false → (m.write v).2 = 0) := by
  cases m with
  | imp | acc => exact ⟨fun _ => rfl, fun _ => rfl⟩
  | imm | rel => exact ⟨nofun, fun _ => rfl⟩
  | idx => exact ⟨fun _ => rfl, nofun⟩
  | abs | ind | reg => exact ⟨nofun, nofun⟩

/-- The index bytes that name a register are 1 to 5 (10_state.md R21). -/
theorem regOfIndex_isSome (b : Byte) : (regOfIndex b).isSome = true ↔ 1 ≤ b.toNat ∧ b.toNat ≤ 5 := by
  constructor
  · intro h
    obtain ⟨r, hr⟩ := Option.isSome_iff_exists.1 h
    rw [← regIndex_of_regOfIndex hr]
    cases r <;> decide
  · rintro ⟨hlo, hhi⟩
    obtain ⟨r, rfl⟩ : ∃ r, b = regIndex r := by
      have hb : b.toNat = 1 ∨ b.toNat = 2 ∨ b.toNat = 3 ∨ b.toNat = 4 ∨ b.toNat = 5 := by omega
      obtain h | h | h | h | h := hb
      · exact ⟨.a, BitVec.eq_of_toNat_eq h⟩
      · exact ⟨.w, BitVec.eq_of_toNat_eq h⟩
      · exact ⟨.x, BitVec.eq_of_toNat_eq h⟩
      · exact ⟨.y, BitVec.eq_of_toNat_eq h⟩
      · exact ⟨.z, BitVec.eq_of_toNat_eq h⟩
    rw [regOfIndex_regIndex]; rfl

/-- A mode reads an operand from every two bytes, MOV's from two indices in 1..5 (30_encoding.md R72, R86). -/
theorem Mode.read_isSome (m : Mode) (a1 a2 : Byte) :
    (m.read a1 a2).isSome = true ↔
      (m = .reg → (1 ≤ a1.toNat ∧ a1.toNat ≤ 5) ∧ (1 ≤ a2.toNat ∧ a2.toNat ≤ 5)) := by
  cases m with
  | reg =>
    rw [← regOfIndex_isSome, ← regOfIndex_isSome]
    cases h1 : regOfIndex a1 <;> cases h2 : regOfIndex a2 <;> simp [Mode.read, h1, h2]
  | _ => exact iff_of_true rfl nofun

end Sys2Proof
end

section
/-! Every instruction is its form with an operand of the form's mode, and so what the decoder and the encoder do with one
instruction's bytes is what its mode does (30_encoding.md R71, R72, R80, R84). -/

namespace Sys2Proof

open Machine Laws

/-- `mk` makes the form's instructions: the form's bytes are read, and its instructions written, as its mode does it. -/
structure Form.MadeBy (f : Form) (mk : f.mode.Operand → Instr) : Prop where
  instrOf_eq (a1 a2 : Byte) : instrOf f a1 a2 = (f.mode.read a1 a2).map mk
  form_eq (v : f.mode.Operand) : (mk v).form = f
  operandBytes_eq (v : f.mode.Operand) : operandBytes (mk v) = f.mode.write v

/-- MOV's two register indices are read as its mode does it (30_encoding.md R75, R86). -/
theorem instrOf_mov (a1 a2 : Byte) : instrOf .mov a1 a2 = (Mode.reg.read a1 a2).map fun v => .mov v.1 v.2 := by
  cases h1 : regOfIndex a1 <;> cases h2 : regOfIndex a2 <;> simp [instrOf, Mode.read, h1, h2]

/-- Every instruction is made from an operand of its form's mode (30_encoding.md R72, R84). -/
theorem Instr.exists_operand (i : Instr) : ∃ mk v, i = mk v ∧ i.form.MadeBy mk := by
  cases i with
  | mov src dst => exact ⟨fun v => .mov v.1 v.2, (src, dst), rfl, instrOf_mov, fun _ => rfl, fun _ => rfl⟩
  | ldaAbs w | ldwAbs w | ldxAbs w | ldyAbs w | ldzAbs w | staAbs w | stwAbs w | stxAbs w | styAbs w | stzAbs w
  | jmpAbs w | jmpInd w | jfn w | cmpAbs w | cpwAbs w | cpxAbs w | andAbs w | oraAbs w | xorAbs w
  | rolAbs w | rorAbs w | addAbs w | subAbs w | incAbs w | decAbs w
  | ldaIdx w | ldwIdx w | ldxIdx w | ldyIdx w | ldzIdx w | staIdx w | stwIdx w | stxIdx w | styIdx w | stzIdx w
  | cmpIdx w | cpwIdx w | cpxIdx w | andIdx w | oraIdx w | xorIdx w | addIdx w | subIdx w | incIdx w | decIdx w
  | ldaImm w | ldwImm w | ldxImm w | ldyImm w | ldzImm w | cmpImm w | cpwImm w | cpxImm w | andImm w | oraImm w | xorImm w
  | addImm w | subImm w | bcc w | bcs w | bne w | beq w | brp w | brn w =>
    exact ⟨_, w, rfl, fun _ _ => rfl, fun _ => rfl, fun _ => rfl⟩
  | nop | ret | clc | sec | clo | phs | pos | pha | poa | rolAcc | rorAcc | bsr | bsl | inw | dew | inx | dex =>
    exact ⟨fun _ => _, (), rfl, fun _ _ => rfl, fun _ => rfl, fun _ => rfl⟩

/-- Every form has an instruction: the one its bytes 1 and 1 give. -/
theorem Form.exists_instr (f : Form) : ∃ i, instrOf f 1 1 = some i ∧ i.form = f := by
  cases f <;> exact ⟨_, rfl, rfl⟩

/-- Every form's instructions are made from the operands of its mode (30_encoding.md R72, R84). -/
theorem Form.exists_madeBy (f : Form) : ∃ mk, f.MadeBy mk := by
  obtain ⟨i, -, rfl⟩ := f.exists_instr
  obtain ⟨mk, _, -, hmk⟩ := i.exists_operand
  exact ⟨mk, hmk⟩

theorem Form.mode_eq_reg {f : Form} : f.mode = .reg ↔ f = .mov := by
  cases f <;> decide

/-- An instruction's operand bytes are an operand of its form's mode, and that operand gives the instruction back. -/
theorem Instr.exists_write (i : Instr) : ∃ mk v, i = mk v ∧ operandBytes i = i.form.mode.write v ∧ i.form.MadeBy mk := by
  obtain ⟨mk, v, hi, hmk⟩ := i.exists_operand
  exact ⟨mk, v, hi, (congrArg operandBytes hi).trans (hmk.operandBytes_eq v), hmk⟩

/-- The family of Laws/PerInstr.lean holds of every instruction (30_encoding.md R72, R94). -/
theorem encodeDecode (i : Instr) : EncodeDecode.Statement i := by
  obtain ⟨mk, v, hi, hbytes, hmk⟩ := i.exists_write
  rw [EncodeDecode.Statement, hmk.instrOf_eq, hbytes, Mode.read_write, Option.map_some, ← hi]

/-- An instruction's operand bytes are 0 where its mode uses none (30_encoding.md R76). -/
theorem operandBytes_unused (i : Instr) :
    (usesA1 i.form.mode = false → (operandBytes i).1 = 0) ∧ (usesA2 i.form.mode = false → (operandBytes i).2 = 0) := by
  obtain ⟨_, v, _, hbytes, _⟩ := i.exists_write
  rw [hbytes]
  exact Mode.write_unused _ v

/-- What a form's bytes give has that form, and each byte the mode uses is its operand byte (30_encoding.md R72). -/
theorem instrOf_eq_some {f : Form} {a1 a2 : Byte} {i : Instr} (h : instrOf f a1 a2 = some i) :
    i.form = f ∧ (usesA1 f.mode = true → (operandBytes i).1 = a1) ∧ (usesA2 f.mode = true → (operandBytes i).2 = a2) := by
  obtain ⟨mk, hmk⟩ := f.exists_madeBy
  rw [hmk.instrOf_eq] at h
  obtain ⟨v, hv, rfl⟩ := Option.map_eq_some_iff.1 h
  rw [hmk.operandBytes_eq]
  exact ⟨hmk.form_eq v, Mode.write_of_read hv⟩

/-- What a form's bytes give depends on the bytes its mode uses and on no other (30_encoding.md R76). -/
theorem instrOf_congr {f : Form} {a1 a2 b1 b2 : Byte} (h1 : usesA1 f.mode = true → a1 = b1)
    (h2 : usesA2 f.mode = true → a2 = b2) : instrOf f a1 a2 = instrOf f b1 b2 := by
  obtain ⟨mk, hmk⟩ := f.exists_madeBy
  rw [hmk.instrOf_eq, hmk.instrOf_eq, Mode.read_congr h1 h2]

/-- Only MOV's bytes can be no instruction, and they are one where both are in 1..5 (30_encoding.md R86). -/
theorem instrOf_isSome (f : Form) (a1 a2 : Byte) :
    (instrOf f a1 a2).isSome = true ↔
      (f = .mov → (1 ≤ a1.toNat ∧ a1.toNat ≤ 5) ∧ (1 ≤ a2.toNat ∧ a2.toNat ≤ 5)) := by
  obtain ⟨mk, hmk⟩ := f.exists_madeBy
  rw [hmk.instrOf_eq, Option.isSome_map, Mode.read_isSome, Form.mode_eq_reg]

/-- Only MOV's bytes can be no instruction (30_encoding.md R86). -/
theorem eq_mov_of_instrOf_eq_none {f : Form} {a1 a2 : Byte} (h : instrOf f a1 a2 = none) : f = .mov := by
  by_contra hf
  have := (instrOf_isSome f a1 a2).2 fun hmov => absurd hmov hf
  simp [h] at this

end Sys2Proof
end

section
/-! The decoder and the encoder over any OPCODE_MAP, and the default map (30_encoding.md R79 to R86, R94; 41_cycle.md R130). -/

namespace Sys2Proof

open Machine Laws

/-- The decoder answers the instruction that the opcode's form makes of the operand bytes (30_encoding.md R80). -/
theorem decode_eq_ok {m : OpcodeMap} {op a1 a2 : Byte} {i : Instr} :
    decode m op a1 a2 = .ok i ↔ ∃ f, m.lookup op = some f ∧ instrOf f a1 a2 = some i := by
  cases hf : m.lookup op with
  | none => simp [decode, hf]
  | some f => cases hi : instrOf f a1 a2 <;> simp [decode, hf, hi]

/-- Under a mapped opcode, bytes that make no instruction are reported with all three (30_encoding.md R86). -/
theorem decode_eq_error {m : OpcodeMap} {op a1 a2 : Byte} {f : Form} (hf : m.lookup op = some f)
    (hi : instrOf f a1 a2 = none) : decode m op a1 a2 = .error (.movIndex op a1 a2) := by
  simp [decode, hf, hi]

/-- The encoder answers for a well-formed instruction an opcode of its form and its operand bytes (30_encoding.md R92, R94). -/
theorem encode_of_wellFormed {m : OpcodeMap} {i : Instr} (h : i.wellFormed m = true) :
    ∃ op, m.lookup op = some i.form ∧ encode m i = some [op, (operandBytes i).1, (operandBytes i).2] := by
  obtain ⟨op, hop⟩ := Option.isSome_iff_exists.1 h
  exact ⟨op, OpcodeMap.lookup_opcodeOf hop, by rw [encode, hop]⟩

/-- On three bytes that decode, the decoder of a sequence answers the instruction and the rest (30_encoding.md R70). -/
theorem decodeBytes_of_decode {m : OpcodeMap} {op a1 a2 : Byte} {i : Instr} (h : decode m op a1 a2 = .ok i)
    (rest : List Byte) : decodeBytes m (op :: a1 :: a2 :: rest) = .ok (i, rest) := by
  rw [decodeBytes, h]

/-- Settles O1: the opcode found selects the instruction's form, and its operand bytes give it back under that form. -/
theorem decodeOfEncodeIsTheInstruction : Obligations.DecodeOfEncodeIsTheInstruction := by
  intro m i hwf
  obtain ⟨op, hop, henc⟩ := encode_of_wellFormed hwf
  have hdec : decode m op (operandBytes i).1 (operandBytes i).2 = .ok i := decode_eq_ok.2 ⟨_, hop, encodeDecode i⟩
  exact ⟨_, henc, rfl, decodeBytes_of_decode hdec⟩

/-- Settles O2: what the selected form makes of the bytes has that form, and its used bytes are the ones read. -/
theorem decodedOperandBytesAreEncodedBack : Obligations.DecodedOperandBytesAreEncodedBack := by
  intro m op a1 a2 i h
  obtain ⟨f, hop, hi⟩ := decode_eq_ok.1 h
  obtain ⟨rfl, hbytes⟩ := instrOf_eq_some hi
  exact ⟨hop, hbytes⟩

/-- Settles O3: the form reads the same from bytes that agree where its mode uses them. -/
theorem unusedOperandBytesAreIgnored : Obligations.UnusedOperandBytesAreIgnored := by
  refine ⟨fun m op a1 a2 b1 b2 f hf h1 h2 => ?same, operandBytes_unused⟩
  case same =>
    have heq := instrOf_congr h1 h2
    cases hi : instrOf f a1 a2 with
    | some i => rw [decode_eq_ok.2 ⟨f, hf, hi⟩, decode_eq_ok.2 ⟨f, hf, heq.symm.trans hi⟩]
    | none =>
      -- The report names both bytes, but only MOV reaches it, and MOV uses both.
      obtain rfl : f = .mov := eq_mov_of_instrOf_eq_none hi
      rw [h1 rfl, h2 rfl]

/-- Settles O4: a mapped opcode's form makes an instruction of the bytes unless it is MOV with a bad index. -/
theorem decoderRejectsExactlyTheIllegal : Obligations.DecoderRejectsExactlyTheIllegal := by
  intro m op a1 a2
  calc (∃ i, decode m op a1 a2 = .ok i)
      ↔ ∃ f, m.lookup op = some f ∧ (instrOf f a1 a2).isSome = true := by
        simp only [decode_eq_ok, Option.isSome_iff_exists, exists_comm (α := Instr), exists_and_left]
    _ ↔ _ := by simp only [instrOf_isSome]

/-- An opcode has no entry exactly where the list has none with it (30_encoding.md R80, R85). -/
theorem OpcodeMap.lookup_eq_none {m : OpcodeMap} {op : Byte} : m.lookup op = none ↔ op ∉ m.map (·.1) := by
  induction m with
  | nil => simp [OpcodeMap.lookup]
  | cons e m ih =>
    by_cases h : e.1 = op
    · simp [OpcodeMap.lookup, h]
    · simp [OpcodeMap.lookup, h, ih, Ne.symm h]

/-- Where no opcode stands twice, every entry is its opcode's (30_encoding.md R80). -/
theorem OpcodeMap.lookup_of_mem {m : OpcodeMap} (hm : (m.map (·.1)).Nodup) {e : Byte × Form} (he : e ∈ m) :
    m.lookup e.1 = some e.2 := by
  induction m with
  | nil => cases he
  | cons d m ih =>
    rw [List.map_cons, List.nodup_cons] at hm
    obtain ⟨hd, hm⟩ := hm
    obtain rfl | he := List.mem_cons.1 he
    · simp [OpcodeMap.lookup]
    · have hne : d.1 ≠ e.1 := fun h => hd (h ▸ List.mem_map_of_mem he)
      simpa [OpcodeMap.lookup, hne] using ih hm he

/-- Where no opcode stands twice, every form listed has an opcode (30_encoding.md R92). -/
theorem OpcodeMap.opcodeOf_isSome {m : OpcodeMap} (hm : (m.map (·.1)).Nodup) {f : Form} (hf : f ∈ m.map (·.2)) :
    (m.opcodeOf f).isSome = true := by
  obtain ⟨e, he, rfl⟩ := List.mem_map.1 hf
  rw [OpcodeMap.opcodeOf, Option.isSome_map, List.find?_isSome]
  exact ⟨e, he, by simp [OpcodeMap.lookup_of_mem hm he]⟩

/-- The default map's opcodes in the table's order: 0 to 67 and 69 to 82 (30_encoding.md R84). -/
theorem defaultOpcodeMap_opcodes :
    (defaultOpcodeMap.map (·.1)).map BitVec.toNat = List.range' 0 68 ++ List.range' 69 14 := by decide

/-- No opcode stands twice in the default map (30_encoding.md R84). -/
theorem defaultOpcodeMap_nodup : (defaultOpcodeMap.map (·.1)).Nodup := by
  refine List.Nodup.of_map BitVec.toNat ?_
  rw [defaultOpcodeMap_opcodes]
  decide

/-- Settles O5: every form stands in the default map, whose opcodes are 0 to 67 and 69 to 82. -/
theorem defaultMapEncodesEveryInstruction : Obligations.DefaultMapEncodesEveryInstruction := by
  refine ⟨fun i => OpcodeMap.opcodeOf_isSome defaultOpcodeMap_nodup (mem_forms i.form), fun op => ?unmapped⟩
  case unmapped =>
    have hlt := op.isLt
    rw [OpcodeMap.lookup_eq_none, ← List.mem_map_of_injective BitVec.toNat_injective, defaultOpcodeMap_opcodes,
      List.mem_append, List.mem_range'_1, List.mem_range'_1]
    omega

/-- Settles O6: each word's opcode stands in the default map, and its operand bytes are read as R72 says. -/
theorem sampleWordsDecode : Obligations.SampleWordsDecode :=
  ⟨rfl, rfl, rfl, rfl, rfl, rfl, rfl, rfl⟩

end Sys2Proof
end

section
/-! The adder and the subtractor as numbers (40_alu.md R101 to R103), and bytes chained through the carry (47_arith_incdec.md
R228). -/

namespace Sys2Proof.Machine

@[simp] theorem bit_true : bit true = 1 := rfl

@[simp] theorem bit_false : bit false = 0 := rfl

theorem bit_le_one (b : Bool) : bit b ≤ 1 := by cases b <;> decide

theorem bit_eq_toNat (b : Bool) : bit b = b.toNat := by cases b <;> rfl

/-- A byte's top bit tells whether it is 128 or more. -/
theorem getLsbD_seven_eq_decide (v : Byte) : v.getLsbD 7 = decide (128 ≤ v.toNat) :=
  (BitVec.msb_eq_getLsbD_last v).symm.trans (BitVec.msb_eq_decide v)

/-- A byte's two's complement value: its top bit weighs -128 where as a number it weighs 128 (40_alu.md R102). -/
theorem signed_eq (v : Byte) : signed v = v.toNat - 256 * bit (v.getLsbD 7) := by
  rw [signed, BitVec.toInt_eq_msb_cond, BitVec.msb_eq_getLsbD_last]
  cases v.getLsbD 7 <;> simp

/-- The ripple adder's carry chain is the carry of the library's bit vector addition (40_alu.md R101). -/
theorem rippleCarry_eq_carry (a b : Byte) (cin : Bool) (i : Nat) : rippleCarry a b cin i = BitVec.carry i a b cin := by
  induction i with
  | zero => exact BitVec.carry_zero.symm
  | succ i ih => rw [rippleCarry, ih, BitVec.carry_succ, Bool.atLeastTwo]

/-- The carry out of the ripple adder is the carry out of the sum (40_alu.md R102). -/
theorem add8_carry (a b : Byte) (cin : Bool) :
    (add8 a b cin).carry = decide (256 ≤ a.toNat + b.toNat + bit cin) := by
  show rippleCarry a b cin 8 = _
  rw [rippleCarry_eq_carry, BitVec.carry, Nat.mod_eq_of_lt a.isLt, Nat.mod_eq_of_lt b.isLt, bit_eq_toNat]

/-- The sum bits of the ripple adder are those of the library's addition (40_alu.md R101). -/
theorem add8_r (a b : Byte) (cin : Bool) : (add8 a b cin).r = a + b + (BitVec.ofBool cin).setWidth 8 := by
  refine BitVec.eq_of_getLsbD_eq fun i hi => ?_
  rw [BitVec.getLsbD_add_add_bool hi, ← rippleCarry_eq_carry, add8, BitVec.getLsbD_ofFnLE, dif_pos hi, rippleSum,
    Bool.xor_assoc]

theorem toNat_add8_r (a b : Byte) (cin : Bool) :
    (add8 a b cin).r.toNat = (a.toNat + b.toNat + bit cin) % 256 := by
  rw [add8_r, bit_eq_toNat]
  cases cin <;> simp [BitVec.toNat_add]

/-- Result and carry together are the exact sum: the carry is its bit 8 (40_alu.md R102). -/
theorem add8_exact (a b : Byte) (cin : Bool) :
    256 * bit (add8 a b cin).carry + (add8 a b cin).r.toNat = a.toNat + b.toNat + bit cin := by
  have ha := a.isLt
  have hb := b.isLt
  have hcin := bit_le_one cin
  rw [toNat_add8_r, add8_carry]
  by_cases h : 256 ≤ a.toNat + b.toNat + bit cin
  · rw [decide_eq_true h, bit_true]; omega
  · rw [decide_eq_false h, bit_false]; omega

/-- The overflow bit as the model computes it: the operands' signs agree and the result's differs (40_alu.md R101). -/
theorem add8_overflow (a b : Byte) (cin : Bool) :
    (add8 a b cin).overflow =
      (a.getLsbD 7 == b.getLsbD 7 && (add8 a b cin).r.getLsbD 7 != a.getLsbD 7) := rfl

/-- The overflow bit is set exactly where the signed sum leaves the signed range (40_alu.md R102). -/
theorem add8_overflow_eq_decide (a b : Byte) (cin : Bool) :
    (add8 a b cin).overflow =
      decide (signed a + signed b + (bit cin : Int) < -128 ∨ 127 < signed a + signed b + (bit cin : Int)) := by
  have hcin := bit_le_one cin
  have ha := a.isLt
  have hb := b.isLt
  rw [Bool.eq_iff_iff, decide_eq_true_iff, add8_overflow, signed_eq, signed_eq]
  simp only [getLsbD_seven_eq_decide, toNat_add8_r]
  by_cases hsa : 128 ≤ a.toNat <;> by_cases hsb : 128 ≤ b.toNat <;> simp [hsa, hsb] <;> omega

/-- Settles O22: the sum bits and carries of the ripple chain are those of addition, and a byte's sign is its top bit. -/
theorem adderMatchesModularAddition : Obligations.AdderMatchesModularAddition := fun a b cin =>
  ⟨toNat_add8_r a b cin, add8_carry a b cin, add8_overflow_eq_decide a b cin⟩

/-- The subtractor's result and carry together: a minus b and the borrow, above a base of 256 (40_alu.md R103). -/
theorem sub8_exact (a b : Byte) (cin : Bool) :
    256 * bit (sub8 a b cin).carry + (sub8 a b cin).r.toNat + b.toNat = a.toNat + 255 + bit cin := by
  have hsum := add8_exact a (~~~b) cin
  have hb := b.isLt
  rw [BitVec.toNat_not] at hsum
  rw [sub8]
  omega

theorem toNat_sub8_r (a b : Byte) (cin : Bool) :
    (sub8 a b cin).r.toNat = (a.toNat + 256 - b.toNat - (1 - bit cin)) % 256 := by
  have hcin := bit_le_one cin
  have hb := b.isLt
  rw [sub8, toNat_add8_r, BitVec.toNat_not]
  congr 1
  omega

theorem sub8_carry (a b : Byte) (cin : Bool) :
    (sub8 a b cin).carry = decide (b.toNat + (1 - bit cin) ≤ a.toNat) := by
  have hcin := bit_le_one cin
  have hb := b.isLt
  rw [sub8, add8_carry, BitVec.toNat_not, decide_eq_decide]
  omega

/-- The signs agree with the complement's where they differ with the operand's (40_alu.md R103). -/
theorem sub8_overflow (a b : Byte) (cin : Bool) :
    (sub8 a b cin).overflow =
      (a.getLsbD 7 != b.getLsbD 7 && (sub8 a b cin).r.getLsbD 7 != a.getLsbD 7) := by
  rw [sub8, add8_overflow, BitVec.getLsbD_not]
  cases a.getLsbD 7 <;> cases b.getLsbD 7 <;> rfl

/-- Settles O23: the subtractor is the adder on the complement by definition, and 255 - b is the complement as a number. -/
theorem subtractorMatchesBorrowArithmetic : Obligations.SubtractorMatchesBorrowArithmetic := fun a b cin =>
  ⟨rfl, toNat_sub8_r a b cin, sub8_carry a b cin, sub8_overflow a b cin⟩

/-- A word is its two bytes (20_memory.md R50). -/
theorem toNat_eq_bytes (w : Word) : w.toNat = 256 * (hiByte w).toNat + (loByte w).toNat := by
  rw [toNat_hiByte, toNat_loByte, Nat.div_add_mod]

/-- Settles O26: the low carry cancels between the two exact sums, and between the two exact differences. -/
theorem chainedBytesAddAndSubtractWords : Obligations.ChainedBytesAddAndSubtractWords := by
  intro x y
  have hx := toNat_eq_bytes x
  have hy := toNat_eq_bytes y
  refine ⟨?sum, ?difference⟩
  case sum =>
    intro l h
    have hlow : 256 * bit l.carry + l.r.toNat = (loByte x).toNat + (loByte y).toNat + 0 :=
      add8_exact (loByte x) (loByte y) false
    have hhigh : 256 * bit h.carry + h.r.toNat = (hiByte x).toNat + (hiByte y).toNat + bit l.carry :=
      add8_exact (hiByte x) (hiByte y) l.carry
    show 65536 * bit h.carry + 256 * h.r.toNat + l.r.toNat = x.toNat + y.toNat
    omega
  case difference =>
    intro l h
    have hlow : 256 * bit l.carry + l.r.toNat + (loByte y).toNat = (loByte x).toNat + 255 + 1 :=
      sub8_exact (loByte x) (loByte y) true
    have hhigh : 256 * bit h.carry + h.r.toNat + (hiByte y).toNat = (hiByte x).toNat + 255 + bit l.carry :=
      sub8_exact (hiByte x) (hiByte y) l.carry
    have hexact : 65536 * bit h.carry + (256 * h.r.toNat + l.r.toNat) + y.toNat = x.toNat + 65536 := by omega
    have hlt : 256 * h.r.toNat + l.r.toNat < 65536 := by
      have := l.r.isLt
      have := h.r.isLt
      omega
    have hyx : y.toNat < 65536 := y.isLt
    rw [BitVec.toNat_sub]
    cases hc : h.carry with
    | false =>
      rw [hc, bit_false] at hexact
      exact ⟨by omega, (decide_eq_false (by omega)).symm⟩
    | true =>
      rw [hc, bit_true] at hexact
      exact ⟨by omega, (decide_eq_true (by omega)).symm⟩

end Sys2Proof.Machine
end

section
/-! The rotates and shifts: each bit of the result, the result as a number, and chains of them (40_alu.md R104 to R107). -/

namespace Sys2Proof.Machine

/-- ROL8 moves every bit up by one, the carry in at the bottom (40_alu.md R104). -/
theorem getLsbD_rol8 (v : Byte) (cin : Bool) {i : Nat} (hi : i < 8) :
    (rol8 v cin).1.getLsbD i = if i = 0 then cin else v.getLsbD (i - 1) := by
  cases i with
  | zero => simp [rol8]
  | succ i => simp [rol8, hi, BitVec.getLsbD_eq_getElem (Nat.lt_of_succ_lt hi)]

/-- ROR8 moves every bit down by one, the carry in at the top (40_alu.md R105). -/
theorem getLsbD_ror8 (v : Byte) (cin : Bool) {i : Nat} (hi : i < 8) :
    (ror8 v cin).1.getLsbD i = if i = 7 then cin else v.getLsbD (i + 1) := by
  by_cases h7 : i = 7
  · subst h7; simp [ror8]
  · have hlt : i < 7 := by omega
    simp [ror8, hi, hlt, h7, Nat.add_comm]

/-- The carry as a byte. -/
theorem toNat_carryByte (cin : Bool) : ((BitVec.ofBool cin).setWidth 8).toNat = bit cin := by cases cin <;> rfl

theorem toNat_rol8 (v : Byte) (cin : Bool) : (rol8 v cin).1.toNat = (2 * v.toNat + bit cin) % 256 := by
  have hcin : bit cin < 2 ^ 1 := Nat.lt_succ_of_le (bit_le_one cin)
  have hshift : v.toNat <<< 1 % 2 ^ 8 = (v.toNat % 128) <<< 1 := by rw [Nat.shiftLeft_eq, Nat.shiftLeft_eq]; omega
  rw [rol8, BitVec.toNat_or, toNat_carryByte, BitVec.toNat_shiftLeft, hshift, ← Nat.shiftLeft_add_eq_or_of_lt hcin,
    Nat.shiftLeft_eq]
  omega

theorem toNat_ror8 (v : Byte) (cin : Bool) : (ror8 v cin).1.toNat = 128 * bit cin + v.toNat / 2 := by
  have hcin := bit_le_one cin
  have hhalf : v.toNat / 2 < 2 ^ 7 := by have := v.isLt; omega
  have hshift : bit cin <<< 7 % 2 ^ 8 = bit cin <<< 7 := by rw [Nat.shiftLeft_eq]; omega
  rw [ror8, BitVec.toNat_or, BitVec.toNat_shiftLeft, toNat_carryByte, hshift, BitVec.toNat_ushiftRight,
    Nat.shiftRight_eq_div_pow, ← Nat.shiftLeft_add_eq_or_of_lt hhalf, Nat.shiftLeft_eq, Nat.mul_comm]

theorem toNat_shl8 (v : Byte) : (shl8 v).1.toNat = 2 * v.toNat % 256 := toNat_rol8 v false

theorem toNat_shr8 (v : Byte) : (shr8 v).1.toNat = v.toNat / 2 :=
  (toNat_ror8 v false).trans (Nat.zero_add _)

/-- A byte's bottom bit tells whether it is odd. -/
theorem getLsbD_zero_eq_decide (v : Byte) : v.getLsbD 0 = decide (v.toNat % 2 = 1) := Nat.testBit_zero v.toNat

/-- Settles O24: the ejected bits are the top and the bottom bit, and a shift is a rotate of a carry of 0. -/
theorem rotatesAndShiftsAsNumbers : Obligations.RotatesAndShiftsAsNumbers := fun v cin =>
  have htop := getLsbD_seven_eq_decide v
  have hbottom := getLsbD_zero_eq_decide v
  ⟨⟨toNat_rol8 v cin, htop⟩, ⟨toNat_ror8 v cin, hbottom⟩, ⟨toNat_shl8 v, htop⟩, ⟨toNat_shr8 v, hbottom⟩⟩

/-- A byte and a carry as a ring of nine bits, the carry at place 8, above bit 7 and below bit 0 (40_alu.md R107). -/
def ringBit (p : Byte × Bool) (i : Nat) : Bool := if i = 8 then p.2 else p.1.getLsbD i

/-- The nine bits of the ring are the byte and the carry. -/
theorem eq_of_ringBit_eq {p q : Byte × Bool} (h : ∀ i, i < 9 → ringBit p i = ringBit q i) : p = q := by
  refine Prod.ext (BitVec.eq_of_getLsbD_eq fun i hi => ?_) (h 8 (by decide))
  simpa [ringBit, Nat.ne_of_lt hi] using h i (Nat.lt_succ_of_lt hi)

/-- ROL8 turns the ring by one place up: each place takes the bit eight places on (40_alu.md R104). -/
theorem ringBit_rol8 (p : Byte × Bool) {i : Nat} (hi : i < 9) : ringBit (rol8 p.1 p.2) i = ringBit p ((i + 8) % 9) := by
  by_cases h8 : i = 8
  · subst h8; rfl
  · rw [ringBit, if_neg h8, getLsbD_rol8 p.1 p.2 (by omega)]
    by_cases h0 : i = 0
    · subst h0; rfl
    · rw [if_neg h0, show (i + 8) % 9 = i - 1 by omega, ringBit, if_neg (by omega)]

/-- ROR8 turns the ring by one place down: each place takes the bit of the next (40_alu.md R105). -/
theorem ringBit_ror8 (p : Byte × Bool) {i : Nat} (hi : i < 9) : ringBit (ror8 p.1 p.2) i = ringBit p ((i + 1) % 9) := by
  by_cases h8 : i = 8
  · subst h8; rfl
  · rw [ringBit, if_neg h8, getLsbD_ror8 p.1 p.2 (by omega)]
    by_cases h7 : i = 7
    · subst h7; rfl
    · rw [if_neg h7, Nat.mod_eq_of_lt (by omega), ringBit, if_neg (by omega)]

/-- Chained turns of the ring add up (40_alu.md R107). -/
theorem ringBit_rotateTimes {f : Byte → Bool → Byte × Bool} {k : Nat}
    (hf : ∀ (p : Byte × Bool) {i : Nat}, i < 9 → ringBit (f p.1 p.2) i = ringBit p ((i + k) % 9)) (n : Nat)
    (p : Byte × Bool) {i : Nat} (hi : i < 9) : ringBit (rotateTimes f n p) i = ringBit p ((i + n * k) % 9) := by
  induction n generalizing p with
  | zero => rw [Nat.zero_mul, Nat.add_zero, Nat.mod_eq_of_lt hi, rotateTimes]
  | succ n ih =>
    rw [rotateTimes, ih, hf p (Nat.mod_lt _ (by decide)), Nat.mod_add_mod, Nat.succ_mul, Nat.add_assoc]

/-- Nine turns of the ring by the same number of places are whole turns (40_alu.md R107). -/
theorem rotateTimes_nine {f : Byte → Bool → Byte × Bool} {k : Nat}
    (hf : ∀ (p : Byte × Bool) {i : Nat}, i < 9 → ringBit (f p.1 p.2) i = ringBit p ((i + k) % 9)) (p : Byte × Bool) :
    rotateTimes f 9 p = p := by
  refine eq_of_ringBit_eq fun i hi => ?_
  rw [ringBit_rotateTimes hf 9 p hi, Nat.add_mul_mod_self_left, Nat.mod_eq_of_lt hi]

/-- Settles O25: nine turns of a ring of nine bits are none, and eight turns up are one turn down. -/
theorem nineChainedRotatesAreTheIdentity : Obligations.NineChainedRotatesAreTheIdentity := by
  refine fun v cin =>
    ⟨rotateTimes_nine ringBit_rol8 _, rotateTimes_nine ringBit_ror8 _, eq_of_ringBit_eq fun i hi => ?eight⟩
  case eight =>
    rw [ringBit_rotateTimes ringBit_rol8 8 _ hi, ringBit_ror8 (v, cin) hi, show (i + 8 * 8) % 9 = (i + 1) % 9 by omega]

end Sys2Proof.Machine
end

section
/-! What each operand mode reads and addresses (30_encoding.md R72, 41_cycle.md R129), and the frames of the flag writes of
compares, rotates and shifts (10_state.md R29). -/

namespace Sys2Proof.Machine

/-- The operand read of each mode (41_cycle.md R129). -/
def Operand.read (s : State) : Operand → Res Byte
  | .abs addr => opAbs addr s
  | .idx zp => opIdx zp s
  | .imm v => opImm v s

/-- An operand read cannot fail: it answers the operand's value and changes nothing (20_memory.md R46, 30_encoding.md R72). -/
theorem Operand.read_eq (s : State) (o : Operand) : o.read s = .done (o.value s) s := by
  cases o with
  | abs addr => exact opAbs_eq addr s
  | idx zp => rw [Operand.read, opIdx_eq, State.indexed_toNat]; rfl
  | imm v => rfl

/-- The effective address of each mode of a cell (41_cycle.md R129). -/
def CellOperand.effective (s : State) : CellOperand → Word
  | .abs addr => addr
  | .idx zp => s.indexed zp

theorem CellOperand.toNat_effective (s : State) (c : CellOperand) : (c.effective s).toNat = c.addr s := by
  cases c with
  | abs addr => rfl
  | idx zp => exact State.indexed_toNat zp s

/-- A cell reads as the byte just stored in it (20_memory.md R48). -/
theorem State.byteAt_putByte_same {s : State} (h : s.mem.wf = true) (a : Nat) (v : Byte) :
    (s.putByte a v).byteAt a = v := by rw [State.byteAt_putByte h, if_pos rfl]

/-- A compare changes C, Z and N alone (45_compare_bitwise.md R195). -/
theorem State.setCompare_stackFrame (s : State) (o : CmpResult) : StackFrame [] [7, 1, 0] [] s (s.setCompare o) := by
  refine ⟨fun _ _ => by simp, fun j _ hj => ?_, fun _ _ => by simp, by simp [ControlKept]⟩
  simp only [List.mem_cons, not_or] at hj
  obtain ⟨h7, h1, h0, -⟩ := hj
  rw [State.setCompare_bit, if_neg h7, if_neg h1, if_neg h0]

/-- A shift changes C and N alone (46_rotate_shift.md R212, R213; C3). -/
theorem State.setShift_stackFrame (s : State) (o : Byte × Bool) : StackFrame [] [7, 0] [] s (s.setShift o) := by
  refine ⟨fun _ _ => by simp, fun j _ hj => ?_, fun _ _ => by simp, by simp [ControlKept]⟩
  simp only [List.mem_cons, not_or] at hj
  obtain ⟨h7, h0, -⟩ := hj
  rw [State.setShift_bit, if_neg h7, if_neg h0]

/-- A rotate of the accumulator changes C, N and Z alone among the flags (46_rotate_shift.md R210, R211). -/
theorem State.setRotateAcc_stackFrame (s : State) (o : Byte × Bool) :
    StackFrame [] [7, 1, 0] [] s (s.setRotateAcc o) := by
  refine ⟨fun _ _ => by simp, fun j _ hj => ?_, fun _ _ => by simp, by simp [ControlKept]⟩
  simp only [List.mem_cons, not_or] at hj
  obtain ⟨h7, h1, h0, -⟩ := hj
  rw [State.setRotateAcc_bit, if_neg h1, if_neg h7, if_neg h0]

end Sys2Proof.Machine
end

section
/-! The compares, rotates, shifts and cell steps (45_compare_bitwise.md R195 to R197; 46_rotate_shift.md R210 to R213;
47_arith_incdec.md R222, R223). -/

namespace Sys2Proof.Machine

/-- What a compare's execute part does, an instruction that runs it does (45_compare_bitwise.md R195). -/
theorem comparesReg_of_exec {mk : Operand → Instr} {r : Reg}
    (hexec : ∀ o s, exec (mk o) s = finish (compareWith r (o.read s))) : ComparesReg mk r := by
  intro o s
  refine ⟨_, ?run, ?c, ?z, ?n, rfl, (s.setCompare_stackFrame (cmp8 (s.reg r) (o.value s))).advance s.pc, rfl⟩
  case run => rw [hexec, Operand.read_eq, compareWith_done, finish_done]
  case c => rw [State.advance_flagC, State.setCompare_flagC, cmp8]
  case z => rw [State.advance_flagZ, State.setCompare_flagZ, cmp8]
  case n => rw [State.advance_flagN, State.setCompare_flagN, cmp8]

/-- Settles O47: each is the compare of its register with the operand its mode reads. -/
theorem comparesSetUnsignedOrder : Obligations.ComparesSetUnsignedOrder :=
  ⟨comparesReg_of_exec fun o _ => by cases o <;> rfl, comparesReg_of_exec fun o _ => by cases o <;> rfl,
    comparesReg_of_exec fun o _ => by cases o <;> rfl⟩

/-- What the execute part of a rotate of the accumulator leaves (46_rotate_shift.md R210, R211). -/
theorem rotateA_next (f : Byte → Bool → Byte × Bool) (s : State) :
    ∃ t, finish (rotateA f s) = .next t ∧ t.a = (f s.a s.flagC).1 ∧ t.flagC = (f s.a s.flagC).2 ∧
      t.flagN = t.a.getLsbD 7 ∧ t.flagZ = decide (t.a = 0) ∧ t.pc = s.pc + 3 ∧ Frame [.a] [7, 1, 0] [] s t := by
  rw [rotateA_eq, finish_done]
  refine ⟨_, rfl, rfl, ?c, ?n, ?z, rfl, ?frame, rfl⟩
  case c => rw [State.advance_flagC, State.setRotateAcc_flagC]
  case n => rw [State.advance_flagN, State.setRotateAcc_flagN]; rfl
  case z => rw [State.advance_flagZ, State.setRotateAcc_flagZ]; rfl
  case frame =>
    exact ((State.setReg_stackFrame s .a _).trans (State.setRotateAcc_stackFrame _ _)).advance _

theorem exec_rolAcc (s : State) : exec .rolAcc s = finish (rotateA rol8 s) := rfl

theorem exec_rorAcc (s : State) : exec .rorAcc s = finish (rotateA ror8 s) := rfl

/-- Settles O49: the rotates of the accumulator, with the results as numbers. -/
theorem rotatesOfTheAccumulator : Obligations.RotatesOfTheAccumulator := by
  intro s
  rw [exec_rolAcc, exec_rorAcc]
  refine ⟨?rol, ?ror⟩
  case rol =>
    obtain ⟨t, ht, ha, hrest⟩ := rotateA_next rol8 s
    exact ⟨t, ht, (congrArg BitVec.toNat ha).trans (toNat_rol8 _ _), hrest⟩
  case ror =>
    obtain ⟨t, ht, ha, hrest⟩ := rotateA_next ror8 s
    exact ⟨t, ht, (congrArg BitVec.toNat ha).trans (toNat_ror8 _ _), hrest⟩

/-- What the execute part of a rotate of a cell leaves (46_rotate_shift.md R210, R211; C3). -/
theorem rotateCell_next (f : Byte → Bool → Byte × Bool) (ea : Word) {s : State} (h : s.mem.wf = true) :
    ∃ t, finish (rotateCell f ea s) = .next t ∧ t.byteAt ea.toNat = (f (s.byteAt ea.toNat) s.flagC).1 ∧
      t.flagC = (f (s.byteAt ea.toNat) s.flagC).2 ∧ t.flagN = (t.byteAt ea.toNat).getLsbD 7 ∧
      t.pc = s.pc + 3 ∧ Frame [] [7, 0] [ea.toNat] s t := by
  rw [rotateCell_eq, finish_done]
  refine ⟨_, rfl, State.byteAt_putByte_same h _ _, ?c, ?n, rfl, ?frame, rfl⟩
  case c => rw [State.advance_flagC, State.setShift_flagC]
  case n => rw [State.advance_flagN, State.setShift_flagN, State.advance_byteAt, State.setShift_byteAt,
      State.byteAt_putByte_same h]
  case frame =>
    exact ((State.putByte_stackFrame h ea.toNat _).trans (State.setShift_stackFrame _ _)).advance _

theorem exec_rolAbs (addr : Word) (s : State) : exec (.rolAbs addr) s = finish (rotateCell rol8 addr s) := rfl

theorem exec_rorAbs (addr : Word) (s : State) : exec (.rorAbs addr) s = finish (rotateCell ror8 addr s) := rfl

/-- Settles O50: the rotates of a cell, with the results as numbers. -/
theorem rotatesOfAMemoryCell : Obligations.RotatesOfAMemoryCell := by
  intro addr s h
  rw [exec_rolAbs, exec_rorAbs]
  refine ⟨?rol, ?ror⟩
  case rol =>
    obtain ⟨t, ht, hcell, hrest⟩ := rotateCell_next rol8 addr h
    exact ⟨t, ht, (congrArg BitVec.toNat hcell).trans (toNat_rol8 _ _), hrest⟩
  case ror =>
    obtain ⟨t, ht, hcell, hrest⟩ := rotateCell_next ror8 addr h
    exact ⟨t, ht, (congrArg BitVec.toNat hcell).trans (toNat_ror8 _ _), hrest⟩

/-- What the execute part of BSR and BSL leaves (46_rotate_shift.md R212, R213). -/
theorem shiftA_next (f : Byte → Byte × Bool) (s : State) :
    ∃ t, finish (shiftA f s) = .next t ∧ t.a = (f s.a).1 ∧ t.flagC = (f s.a).2 ∧ t.flagN = (f s.a).1.getLsbD 7 ∧
      t.pc = s.pc + 3 ∧ Frame [.a] [7, 0] [] s t := by
  rw [shiftA_eq, finish_done]
  refine ⟨_, rfl, rfl, ?c, ?n, rfl, ?frame, rfl⟩
  case c => rw [State.advance_flagC, State.setShift_flagC]
  case n => rw [State.advance_flagN, State.setShift_flagN]
  case frame =>
    exact ((State.setReg_stackFrame s .a _).trans (State.setShift_stackFrame _ _)).advance _

theorem exec_bsr (s : State) : exec .bsr s = finish (shiftA shr8 s) := rfl

theorem exec_bsl (s : State) : exec .bsl s = finish (shiftA shl8 s) := rfl

/-- Settles O51: the shifts of the accumulator; bit 7 of the result is the 0 shifted in, or the old bit 6. -/
theorem shiftsOfTheAccumulator : Obligations.ShiftsOfTheAccumulator := by
  intro s
  rw [exec_bsr, exec_bsl]
  refine ⟨?bsr, ?bsl⟩
  case bsr =>
    obtain ⟨t, ht, ha, hc, hn, hrest⟩ := shiftA_next shr8 s
    exact ⟨t, ht, (congrArg BitVec.toNat ha).trans (toNat_shr8 _), hc, hn.trans (getLsbD_ror8 _ false (by decide)), hrest⟩
  case bsl =>
    obtain ⟨t, ht, ha, hc, hn, hrest⟩ := shiftA_next shl8 s
    exact ⟨t, ht, (congrArg BitVec.toNat ha).trans (toNat_shl8 _), hc, hn.trans (getLsbD_rol8 _ false (by decide)), hrest⟩

/-- INC8 as a number (40_alu.md R110). -/
theorem toNat_inc8 (v : Byte) : (inc8 v).toNat = (v.toNat + 1) % 256 := BitVec.toNat_add v 1

/-- DEC8 as a number: one down is 255 up (40_alu.md R110). -/
theorem toNat_dec8 (v : Byte) : (dec8 v).toNat = (v.toNat + 255) % 256 := by
  rw [dec8, BitVec.toNat_sub, Nat.add_comm]; rfl

/-- What the execute part of INC and DEC does, an instruction that runs it does (47_arith_incdec.md R222, R223). -/
theorem stepsCell_of_exec {mk : CellOperand → Instr} {f : Byte → Byte} {g : Nat → Nat}
    (hexec : ∀ c s, exec (mk c) s = finish (stepCell f (c.effective s) s)) (hf : ∀ v, (f v).toNat = g v.toNat % 256) :
    StepsCell mk g := by
  intro c s h
  rw [hexec, stepCell_eq, finish_done, CellOperand.toNat_effective]
  refine ⟨_, rfl, ?cell, ?n, ?z, rfl, ?frame, rfl⟩
  case cell => rw [State.advance_byteAt, State.setNZ_byteAt, State.byteAt_putByte_same h, hf]
  case n => rw [State.advance_flagN, State.setNZ_flagN, State.advance_byteAt, State.setNZ_byteAt,
      State.byteAt_putByte_same h]
  case z => rw [State.advance_flagZ, State.setNZ_flagZ, State.advance_byteAt, State.setNZ_byteAt,
      State.byteAt_putByte_same h]
  case frame =>
    exact ((State.putByte_stackFrame h (c.addr s) _).trans (State.setNZ_stackFrame _ _)).advance _

/-- Settles O54: each steps the cell its mode addresses. -/
theorem incAndDecStepACell : Obligations.IncAndDecStepACell :=
  ⟨stepsCell_of_exec (fun c _ => by cases c <;> rfl) toNat_inc8,
    stepsCell_of_exec (fun c _ => by cases c <;> rfl) toNat_dec8⟩

end Sys2Proof.Machine
end

section
/-! The end of an instruction that transfers no control: the pc three on, or the pc itself at a fault of the stack engine
(41_cycle.md R133, R139; 60_exceptions.md R243). -/

namespace Sys2Proof.Machine

/-- How an instruction that transfers no control ends: with the advance from its own address and the status as it was, or
with a fault at that address (41_cycle.md R133, 60_exceptions.md R243). -/
inductive FallsThrough (s : State) : State → Prop
  | done {u : State} (hstatus : u.status = s.status) : FallsThrough s (u.advance s.pc)
  | raised {u : State} (info : FaultInfo) (hpc : u.pc = s.pc) : FallsThrough s (u.enterFault info)

/-- The pc after an instruction that falls through tells whether it faulted. -/
theorem FallsThrough.pc_eq {s t : State} (h : FallsThrough s t) (hs : s.status ≠ .faulted) :
    t.pc = if t.status = .faulted then s.pc else s.pc + 3 := by
  cases h with
  | done hstatus => rw [State.advance_status, hstatus, if_neg hs]; rfl
  | raised info hpc => rw [State.enterFault_status, if_pos rfl]; exact hpc

/-- An instruction that pushes a byte and ends (44_flags_stack.md R183, R185). -/
theorem finish_push_fallsThrough (v : Byte) (s : State) :
    ∃ t, finish ((push v s).bind fun _ u => fallThrough u) = .next t ∧ FallsThrough s t := by
  obtain ⟨-, he⟩ | ⟨-, -, he⟩ | ⟨-, -, he⟩ := push_cases v s <;> rw [he]
  · exact ⟨_, rfl, .raised _ rfl⟩
  · exact ⟨_, rfl, .raised _ rfl⟩
  · exact ⟨_, rfl, .done rfl⟩

/-- An instruction that pops a byte, writes registers or flags from it and ends (44_flags_stack.md R184, R186). -/
theorem finish_pop_fallsThrough {f : Byte → State → State} (hpc : ∀ v u, (f v u).pc = u.pc)
    (hstatus : ∀ v u, (f v u).status = u.status) (s : State) :
    ∃ t, finish ((pop s).bind fun v u => fallThrough (f v u)) = .next t ∧ FallsThrough s t := by
  obtain ⟨-, he⟩ | ⟨-, -, he⟩ | ⟨-, -, he⟩ := pop_cases s <;> rw [he]
  · exact ⟨_, rfl, .raised _ rfl⟩
  · exact ⟨_, rfl, .raised _ rfl⟩
  · rw [Res.bind_done, fallThrough_eq, finish_done, hpc]
    exact ⟨_, rfl, .done (hstatus _ _)⟩

/-- Every instruction that transfers no control falls through: only those of the stack engine can fault, since every operand
and every cell another one addresses exists (41_cycle.md R139, 60_exceptions.md R241). -/
theorem exec_fallsThrough {i : Instr} (hi : transfersControl i = false) (s : State) :
    ∃ t, exec i s = .next t ∧ FallsThrough s t := by
  cases i with
  | nop | clc | sec | clo | rolAcc | rorAcc | bsr | bsl | inx | dex | inw | dew => exact ⟨_, rfl, .done rfl⟩
  | mov src dst => cases dst <;> exact ⟨_, rfl, .done rfl⟩
  | ldaImm | ldwImm | ldxImm | ldyImm | ldzImm | cmpImm | cpwImm | cpxImm | andImm | oraImm | xorImm | addImm | subImm =>
    exact ⟨_, rfl, .done rfl⟩
  | ldaAbs addr | ldwAbs addr | ldxAbs addr | ldyAbs addr | ldzAbs addr =>
    exact ⟨_, congrArg (finish <| loadInto _ ·) (opAbs_eq addr s), .done rfl⟩
  | ldaIdx zp | ldwIdx zp | ldxIdx zp | ldyIdx zp | ldzIdx zp =>
    exact ⟨_, congrArg (finish <| loadInto _ ·) (opIdx_eq zp s), .done rfl⟩
  | cmpAbs addr | cpwAbs addr | cpxAbs addr =>
    exact ⟨_, congrArg (finish <| compareWith _ ·) (opAbs_eq addr s), .done rfl⟩
  | cmpIdx zp | cpwIdx zp | cpxIdx zp => exact ⟨_, congrArg (finish <| compareWith _ ·) (opIdx_eq zp s), .done rfl⟩
  | andAbs addr | oraAbs addr | xorAbs addr =>
    exact ⟨_, congrArg (finish <| bitwiseIntoA _ ·) (opAbs_eq addr s), .done rfl⟩
  | andIdx zp | oraIdx zp | xorIdx zp => exact ⟨_, congrArg (finish <| bitwiseIntoA _ ·) (opIdx_eq zp s), .done rfl⟩
  | addAbs addr | subAbs addr => exact ⟨_, congrArg (finish <| arithIntoA _ ·) (opAbs_eq addr s), .done rfl⟩
  | addIdx zp | subIdx zp => exact ⟨_, congrArg (finish <| arithIntoA _ ·) (opIdx_eq zp s), .done rfl⟩
  | staAbs | staIdx | stwAbs | stwIdx | stxAbs | stxIdx | styAbs | styIdx | stzAbs | stzIdx =>
    exact ⟨_, congrArg finish (storeFrom_eq _ _ s), .done rfl⟩
  | rolAbs | rorAbs => exact ⟨_, congrArg finish (rotateCell_eq _ _ s), .done rfl⟩
  | incAbs | incIdx | decAbs | decIdx => exact ⟨_, congrArg finish (stepCell_eq _ _ s), .done rfl⟩
  | phs | pha => exact finish_push_fallsThrough _ s
  | pos => exact finish_pop_fallsThrough (f := State.writeFlags) (fun _ _ => rfl) (fun _ _ => rfl) s
  | poa =>
    exact finish_pop_fallsThrough (f := fun v u => (u.setReg .a v).setNZ v) (fun _ _ => rfl) (fun _ _ => rfl) s
  | jmpAbs | jmpInd | jfn | ret | bcc | bcs | bne | beq | brp | brn => cases hi

/-- Settles O19: such an instruction advances from its own address, or faults there. -/
theorem pcAdvancesByThreeOrStaysAtAFault : Obligations.PcAdvancesByThreeOrStaysAtAFault := by
  intro i s t hi hs h
  obtain ⟨u, hu, hfalls⟩ := exec_fallsThrough hi s
  cases hu.symm.trans h
  exact hfalls.pc_eq hs

end Sys2Proof.Machine
end

section
/-! Jumps and branches: each writes base and nothing else, and the advance adds 3 (43_control.md R160, R161, R164 to R169;
41_cycle.md R139). -/

namespace Sys2Proof.Machine

/-- A state that is not touched keeps everything. -/
theorem StackFrame.refl (s : State) : StackFrame [] [] [] s s :=
  ⟨fun _ _ => rfl, fun _ _ _ => rfl, fun _ _ => rfl, rfl, rfl, rfl, rfl, rfl, rfl⟩

/-- The advance alone changes the pc alone (41_cycle.md R133). -/
theorem State.advance_frame (s : State) (base : Word) : Frame [] [] [] s (s.advance base) :=
  ⟨(StackFrame.refl s).advance base, rfl⟩

theorem exec_jmpAbs (addr : Word) (s : State) : exec (.jmpAbs addr) s = .next (s.advance addr) := rfl

theorem exec_jmpInd (ptr : Word) (s : State) : exec (.jmpInd ptr) s = execJmpInd ptr s := rfl

/-- JMP Absolute-Indirect with both bytes of its pointer inside the space (43_control.md R161). -/
theorem execJmpInd_inside {ptr : Word} (h : ptr.toNat + 1 < memSize) (s : State) :
    execJmpInd ptr s = .next (s.advance (wordOf (s.byteAt ptr.toNat) (s.byteAt (ptr.toNat + 1)))) := by
  rw [execJmpInd, memRead_word, Res.bind_done, memRead_inside h, Res.bind_done, finish_done]

/-- JMP Absolute-Indirect with the low byte of its pointer outside the space (43_control.md R161, 20_memory.md R46). -/
theorem execJmpInd_outside {ptr : Word} (h : memSize ≤ ptr.toNat + 1) (s : State) :
    execJmpInd ptr s = .next (s.enterFault (.address (ptr.toNat + 1))) := by
  rw [execJmpInd, memRead_word, Res.bind_done, memRead_outside h, Res.bind_raised, finish_raised]

/-- Settles O35: base is the target or the pointer's word, and the advance lands three past it. -/
theorem jumpsLandThreePastTheirTarget : Obligations.JumpsLandThreePastTheirTarget := by
  refine ⟨fun addr s => ⟨_, exec_jmpAbs addr s, toNat_add_instrWidth addr, s.advance_frame addr⟩,
    fun ptr s hptr => ?inside, fun s => ?top⟩
  case inside =>
    have hin : ptr.toNat + 1 < memSize := by unfold memSize; bv_omega
    refine ⟨_, (exec_jmpInd ptr s).trans (execJmpInd_inside hin s), ?_, s.advance_frame _⟩
    rw [State.advance_pc, toNat_add_instrWidth, toNat_wordOf]
  case top => exact (exec_jmpInd _ s).trans (execJmpInd_outside (by decide) s)

/-- A word and a sign-extended displacement add as numbers mod 2^16 (30_encoding.md R74). -/
theorem add_sext16 (w : Word) (disp : Byte) : w + sext16 disp = BitVec.ofInt 16 (w.toNat + disp.toInt) := by
  rw [BitVec.ofInt_add, BitVec.ofInt_natCast, BitVec.ofNat_toNat, BitVec.setWidth_eq, sext16, BitVec.signExtend]

/-- An instruction that runs a branch's execute part under `cond` branches when it holds: the 3 taken off base is the 3 the
advance adds (43_control.md R164). -/
theorem branchesWhen_of_exec {mk : Byte → Instr} {cond : State → Bool}
    (hexec : ∀ disp s, exec (mk disp) s = finish (branchIf (cond s) disp s)) : BranchesWhen mk cond := by
  intro disp s
  refine ⟨_, by rw [hexec, branchIf_eq, finish_done], ?pc, s.advance_frame _⟩
  case pc =>
    rw [State.advance_pc]
    cases cond s with
    | true => exact (BitVec.sub_add_cancel _ _).trans (add_sext16 s.pc disp)
    | false => rfl

/-- Settles O41: each is a branch under the flag its rule names. -/
theorem branchesTestTheirFlag : Obligations.BranchesTestTheirFlag :=
  ⟨branchesWhen_of_exec fun _ _ => rfl, branchesWhen_of_exec fun _ _ => rfl, branchesWhen_of_exec fun _ _ => rfl,
    branchesWhen_of_exec fun _ _ => rfl, branchesWhen_of_exec fun _ _ => rfl, branchesWhen_of_exec fun _ _ => rfl⟩

end Sys2Proof.Machine
end

section
/-! The controller's step: the loop test, SUSPEND, the fetch, the decode and the report (41_cycle.md R126 to R138;
60_exceptions.md R242, R243). -/

namespace Sys2Proof.Machine

section
variable {s t : State}

/-- With no host action due a step is the controller's own (log 2). -/
theorem step_of_no_events (he : s.host.events = []) : step s = controllerStep s := by
  rw [step, machineStep, he]

/-- A core that is not Running has no step (41_cycle.md R120; log 4). -/
theorem controllerStep_of_not_running (h : s.status ≠ .running) : controllerStep s = .next s := by
  unfold controllerStep
  cases hs : s.status with
  | running => exact absurd hs h
  | ready | halted | faulted => rfl

/-- A Running core is Halted where the loop test fails (41_cycle.md R126). -/
theorem controllerStep_halt (h : s.status = .running) (hend : s.endAddr ≤ s.pc.toNat) :
    controllerStep s = .next s.halt := by
  simp only [controllerStep, h, State.loopTest, decide_eq_false (Nat.not_lt_of_le hend)]
  rfl

/-- A Running core stays as it is while SUSPEND holds (41_cycle.md R127). -/
theorem controllerStep_suspended (h : s.status = .running) (hend : s.pc.toNat < s.endAddr)
    (hsusp : s.pc ∈ s.host.suspend) : controllerStep s = .next s := by
  simp [controllerStep, h, State.loopTest, hend, State.suspended, hsusp]

/-- A step at an instruction whose bytes lie inside the space decodes them and executes (41_cycle.md R128, R130). -/
theorem step_eq_dispatch (h : s.AtInstruction) (hpc : s.pc.toNat + 2 < memSize) :
    step s = dispatch (s.byteAt s.pc.toNat, s.byteAt (s.pc.toNat + 1), s.byteAt (s.pc.toNat + 2)) s := by
  rw [step_atInstruction h, instructionStep, fetch_inside hpc]

/-- Bytes that decode are executed (41_cycle.md R131). -/
theorem dispatch_ok {op a1 a2 : Byte} {i : Instr} (h : decode s.config.opcodeMap op a1 a2 = .ok i) :
    dispatch (op, a1, a2) s = exec i s := by
  simp only [dispatch, h]

/-- Bytes that do not decode raise IllegalInstruction (41_cycle.md R130). -/
theorem dispatch_error {op a1 a2 : Byte} {e : DecodeError} (h : decode s.config.opcodeMap op a1 a2 = .error e) :
    dispatch (op, a1, a2) s = .next (s.enterFault (DecodeError.info e)) := by
  simp only [dispatch, h]

/-- Under an unmapped opcode the decoder reports the opcode (30_encoding.md R85). -/
theorem decode_unmapped {m : OpcodeMap} {op : Byte} (h : m.lookup op = none) (a1 a2 : Byte) :
    decode m op a1 a2 = .error (.unmappedOpcode op) := by
  rw [decode, h]

/-- MOV's bytes with an index outside 1..5 make no instruction (30_encoding.md R86). -/
theorem instrOf_mov_eq_none {a1 a2 : Byte}
    (h : ¬((1 ≤ a1.toNat ∧ a1.toNat ≤ 5) ∧ (1 ≤ a2.toNat ∧ a2.toNat ≤ 5))) : instrOf .mov a1 a2 = none := by
  rw [← Option.not_isSome_iff_eq_none, instrOf_isSome]
  exact fun hmov => h (hmov rfl)

/-- What an instruction step can do: execute an instruction, or raise the fault of a fetch or a decode with no effect
(41_cycle.md R128 to R131). -/
theorem instructionStep_cases (h : instructionStep s = .next t) :
    (∃ i, exec i s = .next t) ∨ ∃ info, t = s.enterFault info := by
  unfold instructionStep at h
  obtain ⟨bytes, hf⟩ | ⟨info, hf⟩ := fetch_cases s <;> rw [hf] at h
  · cases hd : decode s.config.opcodeMap bytes.1 bytes.2.1 bytes.2.2 with
    | ok i => exact .inl ⟨i, (dispatch_ok hd).symm.trans h⟩
    | error e => exact .inr ⟨_, Host.Outcome.next.inj (h.symm.trans (dispatch_error hd))⟩
  · exact .inr ⟨info, (Host.Outcome.next.inj h).symm⟩

/-- An instruction step keeps END and either keeps the status or leaves the core Faulted with a record (41_cycle.md R133,
60_exceptions.md R243). -/
theorem instructionStep_control (h : instructionStep s = .next t) :
    t.endAddr = s.endAddr ∧ (t.status = s.status ∨ t.status = .faulted ∧ ∃ f, t.fault = some f) := by
  obtain ⟨i, hi⟩ | ⟨info, rfl⟩ := instructionStep_cases h
  · obtain ⟨u, hu, hend⟩ := exec_next_cases hi
    obtain ⟨hstatus, -, hendAddr, -⟩ := hu.controlKept
    obtain ⟨base, rfl⟩ | ⟨info, rfl⟩ := hend
    · exact ⟨hendAddr, .inl hstatus⟩
    · exact ⟨hendAddr, .inr ⟨rfl, _, rfl⟩⟩
  · exact ⟨rfl, .inr ⟨rfl, _, rfl⟩⟩

/-- The report of a step at an instruction: the fault of the next state, or its pc (41_cycle.md R134, 60_exceptions.md
R243). -/
theorem stepReport_atInstruction (hat : s.AtInstruction) (h : instructionStep s = .next t) :
    stepReport s = if t.status = .faulted then t.faultReport else some (.completed t.pc) := by
  obtain ⟨he, hs, hend, hsusp⟩ := hat
  simp [stepReport, he, controllerReport, State.runsInstruction, hs, State.loopTest, hend, State.suspended, hsusp, h]

end

/-- Settles O10: the controller's branches in their order. -/
theorem loopTestThenSuspendDecideTheStep : Obligations.LoopTestThenSuspendDecideTheStep :=
  ⟨fun _ he hs => (step_of_no_events he).trans (controllerStep_of_not_running hs),
    fun _ he hs hend => (step_of_no_events he).trans (controllerStep_halt hs hend),
    fun _ he hs hend hsusp => (step_of_no_events he).trans (controllerStep_suspended hs hend hsusp)⟩

/-- Settles O7: the fetch changes nothing, and the decoded instruction is executed. -/
theorem stepRunsTheDecodedInstruction : Obligations.StepRunsTheDecodedInstruction := fun _ _ hat hpc hdecode =>
  (step_eq_dispatch hat hpc).trans (dispatch_ok hdecode)

/-- Settles O8: the decoder's two errors, each recorded by the fault. -/
theorem illegalInstructionFaultsWithNoEffect : Obligations.IllegalInstructionFaultsWithNoEffect := fun _ hat hpc =>
  ⟨fun hnone => (step_eq_dispatch hat hpc).trans (dispatch_error (decode_unmapped hnone _ _)),
    fun hmov hindex =>
      (step_eq_dispatch hat hpc).trans (dispatch_error (decode_eq_error hmov (instrOf_mov_eq_none hindex)))⟩

/-- Settles O11: every pc is below such an END, so the loop test holds, and neither SUSPEND nor an instruction halts. -/
theorem endPastTheTopNeverHalts : Obligations.EndPastTheTopNeverHalts := by
  intro s t he hs hend hstep
  have hloop : s.pc.toNat < s.endAddr := Nat.lt_of_le_of_lt (Nat.le_of_lt_succ s.pc.isLt) hend
  by_cases hsusp : s.pc ∈ s.host.suspend
  · rw [step_of_no_events he, controllerStep_suspended hs hloop hsusp] at hstep
    cases hstep
    exact ⟨rfl, .inl hs⟩
  · rw [step_atInstruction ⟨he, hs, hloop, hsusp⟩] at hstep
    obtain ⟨hendAddr, hstatus | ⟨hfaulted, -⟩⟩ := instructionStep_control hstep
    · exact ⟨hendAddr, .inl (hstatus.trans hs)⟩
    · exact ⟨hendAddr, .inr hfaulted⟩

/-- Settles O60: a Faulted next state was Running before, so the step wrote the record whose kind is reported. -/
theorem hostIsToldPcOrFaultKind : Obligations.HostIsToldPcOrFaultKind := by
  intro s t hat hstep
  rw [step_atInstruction hat] at hstep
  rw [stepReport_atInstruction hat hstep]
  obtain ⟨-, hs, -⟩ := hat
  refine ⟨fun ht => ?running, fun ht => ?faulted⟩
  case running => rw [if_neg (by simp [ht])]
  case faulted =>
    obtain ⟨-, hkept | ⟨-, f, hf⟩⟩ := instructionStep_control hstep
    · rw [ht, hs] at hkept; cases hkept
    · exact ⟨f, hf, by rw [if_pos ht, State.faultReport, if_pos ht, hf]; rfl⟩

end Sys2Proof.Machine
end

section
/-! The start command: its checks in their order and the state each leaves (41_cycle.md R121 to R125; 60_exceptions.md
R245). -/

namespace Sys2Proof.Machine

section
variable {s : State}

/-- A header inside the space is read whole, and then its marker is checked (41_cycle.md R124, R125). -/
theorem readHeader_inside (h : s.startAddr.toNat + 2 < memSize) :
    readHeader s =
      if s.byteAt s.startAddr.toNat = headerMarker then
        .done () (s.enterRunning (wordOf (s.byteAt (s.startAddr.toNat + 1)) (s.byteAt (s.startAddr.toNat + 2))))
      else .raised (s.enterFault (.marker (s.byteAt s.startAddr.toNat))) := by
  simp only [readHeader, memRead_word, memRead_inside h, memRead_inside (Nat.lt_of_succ_lt h), Res.bind_done, raise_eq]

/-- A header with its marker enters Running (41_cycle.md R125). -/
theorem readHeader_valid (h : s.startAddr.toNat + 2 < memSize) (hmarker : s.byteAt s.startAddr.toNat = headerMarker) :
    readHeader s =
      .done () (s.enterRunning (wordOf (s.byteAt (s.startAddr.toNat + 1)) (s.byteAt (s.startAddr.toNat + 2)))) :=
  (readHeader_inside h).trans (if_pos hmarker)

/-- A header with another byte in its marker's place raises InvalidHeader (41_cycle.md R124). -/
theorem readHeader_badMarker (h : s.startAddr.toNat + 2 < memSize)
    (hmarker : s.byteAt s.startAddr.toNat ≠ headerMarker) :
    readHeader s = .raised (s.enterFault (.marker (s.byteAt s.startAddr.toNat))) :=
  (readHeader_inside h).trans (if_neg hmarker)

/-- A header past the top raises AddressFault(0x10000), whichever byte is the first outside (41_cycle.md R124). -/
theorem readHeader_outside (h : memSize ≤ s.startAddr.toNat + 2) :
    readHeader s = .raised (s.enterFault (.address memSize)) := by
  have hstart : s.startAddr.toNat < memSize := word_lt_memSize s.startAddr
  rw [readHeader, memRead_word, Res.bind_done]
  by_cases h1 : s.startAddr.toNat + 1 < memSize
  · rw [memRead_inside h1, Res.bind_done, show s.startAddr.toNat + 2 = memSize by omega, memRead_outside (Nat.le_refl _),
      Res.bind_raised]
  · rw [show s.startAddr.toNat + 1 = memSize by omega, memRead_outside (Nat.le_refl _), Res.bind_raised]

/-- START in program memory, as numbers (41_cycle.md R123). -/
theorem State.startInRange_iff : s.startInRange = true ↔
    s.config.progLo.toNat ≤ s.startAddr.toNat ∧ s.startAddr.toNat ≤ s.config.progHi.toNat := by
  rw [State.startInRange, Bool.and_eq_true, decide_eq_true_eq, decide_eq_true_eq]

/-- A start command for an address in program memory resets the core and reads the header there (41_cycle.md R122 to R124). -/
theorem startCommand_inRange {given : Option Word} {addr : Word} (hs : s.status ≠ .running)
    (hgiven : given.getD s.config.defaultStart = addr) (hlo : s.config.progLo.toNat ≤ addr.toNat)
    (hhi : addr.toNat ≤ s.config.progHi.toNat) :
    startCommand given s = (readHeader (s.resetForStart addr)).state := by
  have hrange : (s.resetForStart addr).startInRange = true := State.startInRange_iff.2 ⟨hlo, hhi⟩
  rw [startCommand, if_neg hs, hgiven, startup, startChecks, if_pos hrange]

/-- A start command for an address outside program memory raises SegmentFault (41_cycle.md R123). -/
theorem startCommand_outOfRange {given : Option Word} {addr : Word} (hs : s.status ≠ .running)
    (hgiven : given.getD s.config.defaultStart = addr)
    (hout : addr.toNat < s.config.progLo.toNat ∨ s.config.progHi.toNat < addr.toNat) :
    startCommand given s = (s.resetForStart addr).enterFault (.start addr) := by
  have hrange : ¬ (s.resetForStart addr).startInRange = true := fun hin => by
    obtain ⟨hlo, hhi⟩ := State.startInRange_iff.1 hin
    exact hout.elim (Nat.not_lt_of_le hlo) (Nat.not_lt_of_le hhi)
  rw [startCommand, if_neg hs, hgiven, startup, startChecks, if_neg hrange]; rfl

end

/-- Settles O57: the range check, the header read and the marker check, each past the ones before it. -/
theorem startFaultsInOrder : Obligations.StartFaultsInOrder := by
  intro s addr hs
  refine ⟨startCommand_outOfRange (given := some addr) hs rfl, fun hlo hhi => ?_⟩
  have hstart := startCommand_inRange (given := some addr) (addr := addr) hs rfl hlo hhi
  refine ⟨fun htop => hstart.trans (congrArg Res.state (readHeader_outside ?top)),
    fun hin hmarker => hstart.trans (congrArg Res.state (readHeader_badMarker ?fits hmarker))⟩
  case top => rw [State.resetForStart_startAddr, memSize]; omega
  case fits => rw [State.resetForStart_startAddr, memSize]; omega

/-- Settles O56: the action is taken off, both checks pass, and the core enters Running. -/
theorem startWithAValidHeaderRuns : Obligations.StartWithAValidHeaderRuns := by
  intro s given addr rest he hgiven hs hlo hhi hfits hmarker
  have hstart := startCommand_inRange (s := s.takeEvent) hs hgiven hlo hhi
  have hread := readHeader_valid (s := s.takeEvent.resetForStart addr) hfits hmarker
  rw [step_hostEvent he nofun, hostEffect, hstart, hread, Res.state_done, State.enterRunning, toNat_wordOf,
    State.takeEvent_eq he]
  rfl

end Sys2Proof.Machine
end

section
/-! The operand bytes of a load or a store, and the instruction they decode to, whatever stands in a byte the mode ignores
(30_encoding.md R71, R72, R76, R80). -/

namespace Sys2Proof.Machine

/-- The addressing mode of an operand (30_encoding.md R72). -/
def Operand.mode : Operand → Mode
  | .abs _ => .abs
  | .idx _ => .idx
  | .imm _ => .imm

/-- A cell as an operand: the same mode and the same bytes. -/
def CellOperand.toOperand : CellOperand → Operand
  | .abs addr => .abs addr
  | .idx zp => .idx zp

theorem CellOperand.bytes_toOperand (pad : Byte) (c : CellOperand) : c.toOperand.bytes pad = c.bytes pad := by
  cases c <;> rfl

/-- The two bytes of an address, by division and as the encoder writes them (30_encoding.md R72, R94). -/
theorem Operand.bytes_abs (pad : Byte) (addr : Word) : (Operand.abs addr).bytes pad = (hiByte addr, loByte addr) := by
  refine Prod.ext (BitVec.eq_of_toNat_eq ?high) (BitVec.eq_of_toNat_eq ?low)
  case high =>
    rw [toNat_hiByte]
    exact Nat.mod_eq_of_lt (Nat.div_lt_of_lt_mul addr.isLt)
  case low => rw [toNat_loByte]; rfl

/-- A byte the operand's mode uses does not depend on the byte written where the mode ignores one (30_encoding.md R76). -/
theorem Operand.bytes_congr (o : Operand) (pad pad' : Byte) :
    (usesA1 o.mode = true → (o.bytes pad).1 = (o.bytes pad').1) ∧
      (usesA2 o.mode = true → (o.bytes pad).2 = (o.bytes pad').2) := by
  cases o with
  | abs addr => exact ⟨fun _ => rfl, fun _ => rfl⟩
  | idx zp => exact ⟨nofun, fun _ => rfl⟩
  | imm v => exact ⟨fun _ => rfl, nofun⟩

/-- An instruction with an operand's mode and bytes is what its opcode and those bytes decode to, for every byte the mode
ignores (30_encoding.md R76, R80). -/
theorem decode_operand {m : OpcodeMap} {op : Byte} {i : Instr} {o : Operand} (hop : m.lookup op = some i.form)
    (hmode : i.form.mode = o.mode) (hbytes : operandBytes i = o.bytes 0) (pad : Byte) :
    decode m op (o.bytes pad).1 (o.bytes pad).2 = .ok i := by
  have hused := o.bytes_congr pad 0
  rw [← hmode, ← hbytes] at hused
  obtain ⟨h1, h2⟩ := hused
  exact decode_eq_ok.2 ⟨i.form, hop, (instrOf_congr h1 h2).trans (encodeDecode i)⟩

end Sys2Proof.Machine
end

section
/-! NOP, MOV, the loads and the stores (42_load_store_move.md R140 to R151). -/

namespace Sys2Proof.Machine

theorem lookup_loadOpcode (r : Reg) (o : Operand) :
    defaultOpcodeMap.lookup (loadOpcode r o) = some (loadInstr r o).form := by cases r <;> cases o <;> rfl

theorem loadInstr_mode (r : Reg) (o : Operand) : (loadInstr r o).form.mode = o.mode := by cases r <;> cases o <;> rfl

theorem operandBytes_loadInstr (r : Reg) (o : Operand) : operandBytes (loadInstr r o) = o.bytes 0 := by
  cases o with
  | abs addr => rw [Operand.bytes_abs]; cases r <;> rfl
  | idx zp | imm v => cases r <;> rfl

theorem lookup_storeOpcode (r : Reg) (c : CellOperand) :
    defaultOpcodeMap.lookup (storeOpcode r c) = some (storeInstr r c).form := by cases r <;> cases c <;> rfl

theorem storeInstr_mode (r : Reg) (c : CellOperand) : (storeInstr r c).form.mode = c.toOperand.mode := by
  cases r <;> cases c <;> rfl

theorem operandBytes_storeInstr (r : Reg) (c : CellOperand) : operandBytes (storeInstr r c) = c.toOperand.bytes 0 := by
  cases c with
  | abs addr => rw [CellOperand.toOperand, Operand.bytes_abs]; cases r <;> rfl
  | idx zp => cases r <;> rfl

/-- Every load runs the one execute part on the operand of its mode (42_load_store_move.md R141 to R145). -/
theorem exec_loadInstr (r : Reg) (o : Operand) (s : State) :
    exec (loadInstr r o) s = finish (loadInto r (o.read s)) := by cases r <;> cases o <;> rfl

/-- Every store runs the one execute part on the cell of its mode (42_load_store_move.md R146 to R150). -/
theorem exec_storeInstr (r : Reg) (c : CellOperand) (s : State) :
    exec (storeInstr r c) s = finish (storeFrom r (c.effective s) s) := by cases r <;> cases c <;> rfl

theorem exec_mov (src dst : Reg) (s : State) :
    exec (.mov src dst) s = finish (loadInto dst (.done (s.reg src) s)) := rfl

theorem exec_nop (s : State) : exec .nop s = finish (fallThrough s) := rfl

/-- What the execute part of a load leaves (42_load_store_move.md R141 to R145, R151). -/
theorem loadInto_next (r : Reg) (v : Byte) (s : State) :
    ∃ t, finish (loadInto r (.done v s)) = .next t ∧ t.reg r = v ∧ t.flagN = v.getLsbD 7 ∧ t.flagZ = decide (v = 0) ∧
      t.pc = s.pc + 3 ∧ Frame [r] [7, 1] [] s t := by
  rw [loadInto_done, finish_done]
  refine ⟨_, rfl, ?reg, ?n, ?z, rfl, ?frame, ?sp⟩
  case reg => rw [State.advance_reg, State.setNZ_reg, State.setReg_reg_same]
  case n => rw [State.advance_flagN, State.setNZ_flagN]
  case z => rw [State.advance_flagZ, State.setNZ_flagZ]
  case frame => exact ((State.setReg_stackFrame s r v).trans (State.setNZ_stackFrame _ v)).advance _
  case sp => rw [State.advance_sp, State.setNZ_sp, State.setReg_sp]

/-- What the execute part of a store leaves (42_load_store_move.md R146 to R150). -/
theorem storeFrom_next (r : Reg) (ea : Word) {s : State} (h : s.mem.wf = true) :
    ∃ t, finish (storeFrom r ea s) = .next t ∧ t.byteAt ea.toNat = s.reg r ∧ t.pc = s.pc + 3 ∧
      Frame [] [] [ea.toNat] s t := by
  rw [storeFrom_eq, finish_done]
  exact ⟨_, rfl, State.byteAt_putByte_same h _ _, rfl, (State.putByte_stackFrame h _ _).advance _, rfl⟩

/-- Settles O32: every load is the one execute part run on the operand's value. -/
theorem loadsWriteTheOperandAndSetNZ : Obligations.LoadsWriteTheOperandAndSetNZ := by
  refine ⟨fun r o => ?opcode, fun r o s => ?effect⟩
  case opcode => exact decode_operand (lookup_loadOpcode r o) (loadInstr_mode r o) (operandBytes_loadInstr r o)
  case effect =>
    rw [exec_loadInstr, Operand.read_eq]
    exact loadInto_next r (o.value s) s

/-- Settles O33: every store is the one execute part run on the cell's address. -/
theorem storesWriteTheRegisterOnly : Obligations.StoresWriteTheRegisterOnly := by
  refine ⟨fun r c pad => ?opcode, fun r c s h => ?effect⟩
  case opcode =>
    rw [← CellOperand.bytes_toOperand]
    exact decode_operand (lookup_storeOpcode r c) (storeInstr_mode r c) (operandBytes_storeInstr r c) pad
  case effect =>
    rw [exec_storeInstr, ← CellOperand.toNat_effective]
    exact storeFrom_next r (c.effective s) h

/-- Settles O31: opcode 0 is NOP's, whose form reads no byte, and NOP is the advance from its own address. -/
theorem nopOnlyAdvancesThePc : Obligations.NopOnlyAdvancesThePc := by
  refine ⟨fun a1 a2 => decode_eq_ok.2 ⟨.nop, rfl, rfl⟩, fun s => ?advance⟩
  case advance => rw [exec_nop, fallThrough_eq, finish_done]; rfl

/-- Settles O34: a MOV is a load whose operand is the source's old value. -/
theorem movCopiesAndSetsNZ : Obligations.MovCopiesAndSetsNZ := by
  intro src dst s
  rw [exec_mov]
  exact loadInto_next dst (s.reg src) s

end Sys2Proof.Machine
end

section
/-! A call and its return: RET at the state JFN left (43_control.md R162, R163). -/

namespace Sys2Proof.Machine

/-- JFN where there is room for its address keeps the stack in range (20_memory.md R64). -/
theorem State.StackOk.jfn {s t : State} (h : s.StackOk) (hroom : s.config.spMin.toNat + 2 ≤ s.sp.toNat) {addr : Word}
    (ht : exec (.jfn addr) s = .next t) : t.StackOk := by
  rw [execJfn_pushed h hroom] at ht
  obtain rfl := Host.Outcome.next.inj ht
  exact (h.pushed (by omega) _).pushed (State.pushed_room hroom _) _

/-- Settles O40: at the state JFN leaves (O36) the two cells above SP hold the call's own pc, and RET pops them (O38). -/
theorem retAfterJfnContinuesAfterTheCall : Obligations.RetAfterJfnContinuesAfterTheCall := by
  intro addr s h hroom
  have ⟨_, _, _, htop⟩ := h
  obtain ⟨t, ht, hhigh, hlow, hsp, -, hcall⟩ := jfnPushesItsAddressAndJumps addr s h hroom
  have ⟨_, _, _, _, _, _, _, hconfig, _⟩ := hcall
  have hcellHigh : t.stackCell + 2 = s.stackCell := by unfold State.stackCell; rw [hconfig]; omega
  have hcellLow : t.stackCell + 1 = s.stackCell - 1 := by omega
  obtain ⟨u, hu, hpc, -, -, husp, hret⟩ :=
    retPopsAnAddressAndGoesOnAfterIt t (h.jfn hroom ht) (by rw [hconfig]; omega)
  rw [hcellHigh, hcellLow, hhigh, hlow, Nat.div_add_mod] at hpc
  rw [hcellHigh, hcellLow] at hret
  refine ⟨t, u, ht, hu, ?pc, ?frame, ?sp⟩
  case pc => exact BitVec.eq_of_toNat_eq (hpc.trans (toNat_add_instrWidth s.pc).symm)
  case frame => exact (hcall.trans hret).cells_mono (by simp)
  case sp => exact BitVec.eq_of_toNat_eq (by omega)

end Sys2Proof.Machine
end

section
/-! The flag instructions and the other users of one stack byte: CLC, SEC, CLO, PHS, PHA and POS (44_flags_stack.md R180 to
R185). -/

namespace Sys2Proof.Machine

/-- The bits after one flag write (10_state.md R27, R28). -/
theorem State.setFlag_bit (s : State) {k : Nat} (hk : k < 8) (h5 : k ≠ 5) (b : Bool) (j : Nat) :
    (s.setFlag k b).readFlags.getLsbD j = if j = k then b else s.readFlags.getLsbD j := by
  simp only [State.getLsbD_readFlags, State.setFlag_flags, getLsbD_putBit hk]
  by_cases hj : j = 5
  · rw [if_pos hj, if_pos hj, if_neg (hj ▸ h5.symm)]
  · rw [if_neg hj, if_neg hj]

/-- One flag write changes that bit alone (10_state.md R27). -/
theorem State.setFlag_stackFrame (s : State) {k : Nat} (hk : k < 8) (h5 : k ≠ 5) (b : Bool) :
    StackFrame [] [k] [] s (s.setFlag k b) :=
  ⟨fun _ _ => by simp, fun j _ hj => by rw [State.setFlag_bit s hk h5, if_neg (List.ne_of_not_mem_cons hj)],
    fun _ _ => by simp, by simp [ControlKept]⟩

/-- A whole-byte write changes the flags alone, and not bit 5 (10_state.md R28). -/
theorem State.writeFlags_stackFrame (s : State) (v : Byte) :
    StackFrame [] [7, 6, 4, 3, 2, 1, 0] [] s (s.writeFlags v) := by
  refine ⟨fun _ _ => by simp, fun j hj hn => ?bit5, fun _ _ => by simp, by simp [ControlKept]⟩
  case bit5 =>
    have h5 : j = 5 := by simp only [List.mem_cons, not_or] at hn; omega
    rw [State.getLsbD_readFlags, State.getLsbD_readFlags, if_pos h5, if_pos h5]

theorem exec_clc (s : State) : exec .clc s = finish (fallThrough (s.setFlag bitC false)) := rfl

theorem exec_sec (s : State) : exec .sec s = finish (fallThrough (s.setFlag bitC true)) := rfl

theorem exec_clo (s : State) : exec .clo s = finish (fallThrough (s.setFlag bitV false)) := rfl

theorem exec_pha (s : State) : exec .pha s = execPha s := rfl

/-- What one flag write and the advance do, an instruction that is those does (44_flags_stack.md R180 to R182). -/
theorem setsFlag_of_exec {i : Instr} {op : Byte} {k : Nat} {b : Bool} (hk : k < 8) (h5 : k ≠ 5)
    (hdecode : ∀ a1 a2, decode defaultOpcodeMap op a1 a2 = .ok i)
    (hexec : ∀ s, exec i s = finish (fallThrough (s.setFlag k b))) : SetsFlag i op k b := by
  refine ⟨hdecode, fun s => ⟨(s.setFlag k b).advance s.pc, ?run, ?bit, rfl, ?frame, rfl⟩⟩
  case run => rw [hexec, fallThrough_eq, finish_done, State.setFlag_pc]
  case bit => rw [State.advance_readFlags, State.setFlag_bit s hk h5, if_pos rfl]
  case frame => exact (s.setFlag_stackFrame hk h5 b).advance s.pc

/-- What one Push and the advance do, an instruction that is those does: a full stack faults at the Push (20_memory.md R62,
44_flags_stack.md R183, R185). -/
theorem pushesByte_of_exec {i : Instr} {op : Byte} {v : State → Byte}
    (hdecode : ∀ a1 a2, decode defaultOpcodeMap op a1 a2 = .ok i)
    (hexec : ∀ s, exec i s = finish ((push (v s) s).bind fun _ u => fallThrough u)) : PushesByte i op v := by
  refine ⟨hdecode, fun s h hs => ?room, fun s hfull => ?full⟩
  case room =>
    have ⟨_, hmem, _⟩ := h
    refine ⟨(s.pushed (v s)).advance s.pc, ?run, ?cell, rfl, rfl, (State.pushed_stackFrame hmem (v s)).advance s.pc⟩
    case run => rw [hexec, push_eq_pushed h hs, Res.bind_done, fallThrough_eq, finish_done]; rfl
    case cell => rw [State.advance_byteAt, State.pushed_byteAt hmem, if_pos rfl]
  case full => rw [hexec, push_full hfull]; rfl

/-- POS where there is a byte: the flags from the byte popped (44_flags_stack.md R184). -/
theorem execPos_popped {s : State} (h : s.StackOk) (hs : s.sp.toNat < s.config.spTop.toNat) :
    exec .pos s = .next ((s.popped.writeFlags (s.byteAt (s.stackCell + 1))).advance s.pc) := by
  rw [exec_pos, execPos, pop_eq_popped h hs, Res.bind_done, fallThrough_eq, finish_done]; rfl

/-- Settles O43: PHS is one Push of the flags as they read, PHA one Push of A. -/
theorem phsAndPhaPushOneByte : Obligations.PhsAndPhaPushOneByte :=
  ⟨pushesByte_of_exec (fun _ _ => rfl) exec_phs, pushesByte_of_exec (fun _ _ => rfl) exec_pha⟩

/-- Settles O44: one Pop, a whole-byte write of the flags and the advance; an empty stack faults at the Pop. -/
theorem posWritesTheWholeFlags : Obligations.PosWritesTheWholeFlags := by
  refine ⟨fun s h hne => ?pops, fun s hempty => ?empty⟩
  case pops =>
    have ⟨_, hmem, hrange⟩ := h
    refine ⟨_, execPos_popped h (State.SpInRange.lt_spTop hrange hne), ?flags, ?zeroed, rfl, rfl, ?frame⟩
    case flags => rw [State.advance_readFlags, State.readFlags_writeFlags]; rfl
    case zeroed => rw [State.advance_byteAt, State.writeFlags_byteAt, State.popped_byteAt hmem, if_pos rfl]
    case frame =>
      exact ((State.popped_stackFrame hmem).trans (State.writeFlags_stackFrame s.popped _)).advance s.pc
  case empty => rw [exec_pos, execPos, pop_empty hempty]; rfl

/-- Settles O42: C is bit 0 and V is bit 6, and each instruction is one write of its flag. -/
theorem clcSecCloWriteOneFlag : Obligations.ClcSecCloWriteOneFlag :=
  ⟨setsFlag_of_exec (by decide) (by decide) (fun _ _ => rfl) exec_clc,
    setsFlag_of_exec (by decide) (by decide) (fun _ _ => rfl) exec_sec,
    setsFlag_of_exec (by decide) (by decide) (fun _ _ => rfl) exec_clo⟩

end Sys2Proof.Machine
end

section
/-! The bitwise instructions: AND, ORA and XOR into A (45_compare_bitwise.md R198 to R200). -/

namespace Sys2Proof.Machine

/-- The instructions `mk o` stand in a row of the default map, one opcode for each mode from `first` on, and their forms hold
the operand as LDA's do (30_encoding.md R72, R84). -/
structure OperandRow (mk : Operand → Instr) (first : Byte) : Prop where
  lookup_eq (o : Operand) : defaultOpcodeMap.lookup (o.opcodeFrom first) = some (mk o).form
  mode_eq (o : Operand) : (mk o).form.mode = o.mode
  operandBytes_eq (o : Operand) : operandBytes (mk o) = operandBytes (loadInstr .a o)

/-- Each instruction of a row is what its opcode and its operand's bytes decode to, for every byte the mode ignores
(30_encoding.md R76, R80). -/
theorem OperandRow.decode {mk : Operand → Instr} {first : Byte} (h : OperandRow mk first) (o : Operand) (pad : Byte) :
    decode defaultOpcodeMap (o.opcodeFrom first) (o.bytes pad).1 (o.bytes pad).2 = .ok (mk o) :=
  decode_operand (h.lookup_eq o) (h.mode_eq o) ((h.operandBytes_eq o).trans (operandBytes_loadInstr .a o)) pad

theorem andInstr_row : OperandRow andInstr 0x35 := by
  constructor <;> intro o <;> cases o <;> rfl

theorem oraInstr_row : OperandRow oraInstr 0x38 := by
  constructor <;> intro o <;> cases o <;> rfl

theorem xorInstr_row : OperandRow xorInstr 0x3B := by
  constructor <;> intro o <;> cases o <;> rfl

theorem exec_andInstr (o : Operand) (s : State) : exec (andInstr o) s = finish (bitwiseIntoA and8 (o.read s)) := by
  cases o <;> rfl

theorem exec_oraInstr (o : Operand) (s : State) : exec (oraInstr o) s = finish (bitwiseIntoA or8 (o.read s)) := by
  cases o <;> rfl

theorem exec_xorInstr (o : Operand) (s : State) : exec (xorInstr o) s = finish (bitwiseIntoA xor8 (o.read s)) := by
  cases o <;> rfl

/-- A bitwise instruction ends as the load of its result into A does (42_load_store_move.md R141; 45_compare_bitwise.md
R198 to R200). -/
theorem bitwiseIntoA_eq_loadInto (f : Byte → Byte → Byte) (v : Byte) (s : State) :
    bitwiseIntoA f (.done v s) = loadInto .a (.done (f s.a v) s) := by
  rw [bitwiseIntoA_done, loadInto_done]

/-- A row of instructions that run the bitwise execute part with `f` combines bits by `g`, where `f` does
(40_alu.md R108; 45_compare_bitwise.md R198 to R200). -/
theorem combinesBits_of_exec {mk : Operand → Instr} {first : Byte} {f : Byte → Byte → Byte} {g : Bool → Bool → Bool}
    (hrow : OperandRow mk first) (hexec : ∀ o s, exec (mk o) s = finish (bitwiseIntoA f (o.read s)))
    (hf : ∀ a b i, (f a b).getLsbD i = g (a.getLsbD i) (b.getLsbD i)) : CombinesBits mk first g := by
  refine ⟨hrow.decode, fun o s => ?effect⟩
  case effect =>
    rw [hexec, Operand.read_eq, bitwiseIntoA_eq_loadInto]
    obtain ⟨t, ht, (ha : t.a = f s.a (o.value s)), hn, hz, hrest⟩ := loadInto_next .a (f s.a (o.value s)) s
    rw [← ha] at hn hz
    exact ⟨t, ht, fun i _ => by rw [ha, hf], hn, hz, hrest⟩

/-- Settles O48: each loads A with the combination of A and the operand, bit by bit. -/
theorem bitwiseIntoAAndSetNZ : Obligations.BitwiseIntoAAndSetNZ :=
  ⟨combinesBits_of_exec andInstr_row exec_andInstr fun _ _ _ => BitVec.getLsbD_and,
    combinesBits_of_exec oraInstr_row exec_oraInstr fun _ _ _ => BitVec.getLsbD_or,
    combinesBits_of_exec xorInstr_row exec_xorInstr fun _ _ _ => BitVec.getLsbD_xor⟩

end Sys2Proof.Machine
end

section
/-! ADD and SUB, and the register steps INW, DEW, INX and DEX (47_arith_incdec.md R220, R221, R224 to R227). -/

namespace Sys2Proof.Machine

/-- The flags of ADD and SUB are N, V, Z and C alone (47_arith_incdec.md R220, R221). -/
theorem State.setArith_stackFrame (s : State) (o : AddResult) : StackFrame [] [7, 6, 1, 0] [] s (s.setArith o) := by
  refine ⟨fun _ _ => by simp, fun j _ hj => ?_, fun _ _ => by simp, by simp [ControlKept]⟩
  simp only [List.mem_cons, not_or] at hj
  obtain ⟨h7, h6, h1, h0, -⟩ := hj
  rw [State.setArith_bit, if_neg h1, if_neg h7, if_neg h6, if_neg h0]

/-- What the execute part of ADD and SUB leaves, whichever of the two computes the result (47_arith_incdec.md R220, R221). -/
theorem arithIntoA_next (f : Byte → Byte → Bool → AddResult) (v : Byte) (s : State) :
    ∃ t, finish (arithIntoA f (.done v s)) = .next t ∧ t.a = (f s.a v s.flagC).r ∧ t.flagC = (f s.a v s.flagC).carry ∧
      t.flagV = (f s.a v s.flagC).overflow ∧ t.flagN = t.a.getLsbD 7 ∧ t.flagZ = decide (t.a = 0) ∧
      t.pc = s.pc + 3 ∧ Frame [.a] [7, 6, 1, 0] [] s t := by
  rw [arithIntoA_done, finish_done]
  refine ⟨_, rfl, rfl, ?carry, ?overflow, ?n, ?z, rfl, ?frame, rfl⟩
  case carry => rw [State.advance_flagC, State.setArith_flagC]
  case overflow => rw [State.advance_flagV, State.setArith_flagV]
  case n => rw [State.advance_flagN, State.setArith_flagN]; rfl
  case z => rw [State.advance_flagZ, State.setArith_flagZ]; rfl
  case frame => exact ((State.setReg_stackFrame s .a _).trans (State.setArith_stackFrame _ _)).advance _

theorem addInstr_row : OperandRow addInstr 0x45 := by
  constructor <;> intro o <;> cases o <;> rfl

theorem subInstr_row : OperandRow subInstr 0x48 := by
  constructor <;> intro o <;> cases o <;> rfl

theorem exec_addInstr (o : Operand) (s : State) : exec (addInstr o) s = finish (arithIntoA add8 (o.read s)) := by
  cases o <;> rfl

theorem exec_subInstr (o : Operand) (s : State) : exec (subInstr o) s = finish (arithIntoA sub8 (o.read s)) := by
  cases o <;> rfl

/-- Settles O52: the shared execute part with the adder, whose result and carry are those of the sum. -/
theorem addAddsWithCarry : Obligations.AddAddsWithCarry := by
  refine ⟨addInstr_row.decode, fun o s => ?effect⟩
  case effect =>
    rw [exec_addInstr, Operand.read_eq]
    obtain ⟨t, ht, ha, hc, hv, hrest⟩ := arithIntoA_next add8 (o.value s) s
    refine ⟨t, ht, ?sum, ?carry, ?overflow, hrest⟩
    case sum => rw [ha, toNat_add8_r]
    case carry => rw [hc, add8_carry]
    case overflow => rw [hv, add8_overflow, ha]

/-- Settles O53: the shared execute part with the subtractor, whose result and carry are those of the difference. -/
theorem subSubtractsWithBorrow : Obligations.SubSubtractsWithBorrow := by
  refine ⟨subInstr_row.decode, fun o s => ?effect⟩
  case effect =>
    rw [exec_subInstr, Operand.read_eq]
    obtain ⟨t, ht, ha, hc, hv, hrest⟩ := arithIntoA_next sub8 (o.value s) s
    refine ⟨t, ht, ?difference, ?carry, ?overflow, hrest⟩
    case difference => rw [ha, toNat_sub8_r]
    case carry => rw [hc, sub8_carry]
    case overflow => rw [hv, sub8_overflow, ha]

/-- A register step ends as the load of the stepped value into the register does (42_load_store_move.md R141;
47_arith_incdec.md R224 to R227). -/
theorem stepReg_eq_loadInto (f : Byte → Byte) (r : Reg) (s : State) :
    stepReg f r s = loadInto r (.done (f (s.reg r)) s) := by
  rw [stepReg_eq, loadInto_done]

/-- What the execute part of a register step does, an instruction that runs it does (47_arith_incdec.md R224 to R227). -/
theorem stepsReg_of_exec {i : Instr} {op : Byte} {r : Reg} {f : Byte → Byte} {g : Nat → Nat}
    (hdecode : ∀ a1 a2, decode defaultOpcodeMap op a1 a2 = .ok i) (hexec : ∀ s, exec i s = finish (stepReg f r s))
    (hf : ∀ v, (f v).toNat = g v.toNat % 256) : StepsReg i op r g := by
  refine ⟨hdecode, fun s => ?effect⟩
  case effect =>
    rw [hexec, stepReg_eq_loadInto]
    obtain ⟨t, ht, hreg, hn, hz, hrest⟩ := loadInto_next r (f (s.reg r)) s
    rw [← hreg] at hn hz
    exact ⟨t, ht, by rw [hreg, hf], hn, hz, hrest⟩

theorem exec_inw (s : State) : exec .inw s = finish (stepReg inc8 .w s) := rfl

theorem exec_dew (s : State) : exec .dew s = finish (stepReg dec8 .w s) := rfl

theorem exec_inx (s : State) : exec .inx s = finish (stepReg inc8 .x s) := rfl

theorem exec_dex (s : State) : exec .dex s = finish (stepReg dec8 .x s) := rfl

/-- Settles O55: each steps its register by INC8 or DEC8, and its form reads neither operand byte. -/
theorem registerStepsWrapAndSetNZ : Obligations.RegisterStepsWrapAndSetNZ :=
  ⟨stepsReg_of_exec (fun _ _ => rfl) exec_inw toNat_inc8, stepsReg_of_exec (fun _ _ => rfl) exec_dew toNat_dec8,
    stepsReg_of_exec (fun _ _ => rfl) exec_inx toNat_inc8, stepsReg_of_exec (fun _ _ => rfl) exec_dex toNat_dec8⟩

end Sys2Proof.Machine
end

section
/-! Where the execute part of an instruction can fault, and what such a fault leaves: the state as it was, but for JFN and
RET, whose second stack access comes after a first (60_exceptions.md R241, R243, R244). -/

namespace Sys2Proof.Machine

/-- A piece of an instruction, begun in s, that ends with the status as it was, or faults, in an instruction that may, with
no effect before the fault (60_exceptions.md R241, R244). -/
inductive Res.Precise (i : Instr) (s : State) {α : Type} : Res α → Prop
  | done {v : α} {t : State} (hstatus : t.status = s.status) : Res.Precise i s (.done v t)
  | raised (info : FaultInfo) (hi : mayFault i = true) : Res.Precise i s (.raised (s.enterFault info))

section
variable {i : Instr} {s t : State}

theorem mayFault_of_usesStack (hi : usesStack i = true) : mayFault i = true := by
  rw [mayFault, hi, Bool.true_or]

/-! The operand reads and the stack engine. -/

theorem opAbs_precise (addr : Word) : (opAbs addr s).Precise i s := by
  rw [opAbs_eq]; exact .done rfl

theorem opIdx_precise (zp : Byte) : (opIdx zp s).Precise i s := by
  rw [opIdx_eq]; exact .done rfl

/-- The cell SP names exists while SP is in range (20_memory.md R64, 60_exceptions.md R241). -/
theorem State.SpInRange.stackCell_lt (h : s.SpInRange) (hc : s.config.wf = true) : s.stackCell < memSize := by
  obtain ⟨-, htop⟩ := h
  obtain ⟨-, -, -, hfit, -⟩ := (Config.wf_iff _).1 hc
  unfold State.stackCell memSize
  omega

/-- A Push whose cell exists faults at its check alone, before its write (20_memory.md R62). -/
theorem push_precise (v : Byte) (hi : usesStack i = true) (hc : s.config.wf = true) (h : s.SpInRange) :
    (push v s).Precise i s := by
  obtain ⟨-, he⟩ | ⟨-, hout, -⟩ | ⟨-, -, he⟩ := push_cases v s
  · rw [he]; exact .raised _ (mayFault_of_usesStack hi)
  · exact absurd (h.stackCell_lt hc) (Nat.not_lt_of_le hout)
  · rw [he]; exact .done rfl

/-- A Pop whose cell exists faults at its check alone, before SP moves (20_memory.md R63). -/
theorem pop_precise (hi : usesStack i = true) (hc : s.config.wf = true) (h : s.SpInRange) : (pop s).Precise i s := by
  obtain ⟨-, he⟩ | ⟨hs, hout, -⟩ | ⟨-, -, he⟩ := pop_cases s
  · rw [he]; exact .raised _ (mayFault_of_usesStack hi)
  · exact absurd ((h.up hs).stackCell_lt hc) (Nat.not_lt_of_le hout)
  · rw [he]; exact .done rfl

/-- The one access that can fault, then writes that keep the status and the end of the instruction. -/
theorem Res.Precise.fallThrough {α : Type} {op : Res α} (hop : op.Precise i s) {f : α → State → State}
    (hf : ∀ v u, (f v u).status = u.status) : (op.bind fun v u => Machine.fallThrough (f v u)).Precise i s := by
  cases hop with
  | done hstatus => exact .done ((hf _ _).trans hstatus)
  | raised info hi => exact .raised info hi

/-- The low byte of a pointer lies outside the space for P = 0xFFFF alone (43_control.md R161). -/
theorem eq_top_of_succ_outside {ptr : Word} (h : memSize ≤ ptr.toNat + 1) : ptr = 0xFFFF := by
  unfold memSize at h
  bv_omega

/-- JMP Absolute-Indirect faults at the second byte of its pointer, for P = 0xFFFF (43_control.md R161). -/
theorem execJmpInd_precise (ptr : Word) (s : State) : ∃ r, execJmpInd ptr s = finish r ∧ r.Precise (.jmpInd ptr) s := by
  refine ⟨_, rfl, ?_⟩
  rw [memRead_word, Res.bind_done]
  by_cases h : ptr.toNat + 1 < memSize
  · rw [memRead_inside h, Res.bind_done]
    exact .done rfl
  · have hout : memSize ≤ ptr.toNat + 1 := Nat.le_of_not_lt h
    rw [memRead_outside hout, Res.bind_raised]
    exact .raised _ (eq_top_of_succ_outside hout ▸ rfl)

/-- Of the instructions that do not use the stack only JMP Absolute-Indirect can fault: every other address is a 16-bit one,
and so exists (20_memory.md R46, 60_exceptions.md R241). -/
theorem exec_precise_of_not_usesStack (hi : usesStack i = false) (s : State) : ∃ r, exec i s = finish r ∧ r.Precise i s := by
  cases i with
  | nop | jmpAbs | clc | sec | clo | rolAcc | rorAcc | bsr | bsl | inw | dew | inx | dex
  | ldaImm | ldwImm | ldxImm | ldyImm | ldzImm | cmpImm | cpwImm | cpxImm | andImm | oraImm | xorImm | addImm | subImm =>
    exact ⟨_, rfl, .done (by rfl)⟩
  | mov src dst => cases dst <;> exact ⟨_, rfl, .done (by rfl)⟩
  | bcc | bcs | bne | beq | brp | brn => exact ⟨_, congrArg finish (branchIf_eq _ _ s), .done rfl⟩
  | jmpInd ptr => exact execJmpInd_precise ptr s
  | ldaAbs | ldwAbs | ldxAbs | ldyAbs | ldzAbs | cmpAbs | cpwAbs | cpxAbs | andAbs | oraAbs | xorAbs | addAbs | subAbs =>
    exact ⟨_, rfl, (opAbs_precise _).fallThrough fun _ _ => rfl⟩
  | ldaIdx | ldwIdx | ldxIdx | ldyIdx | ldzIdx | cmpIdx | cpwIdx | cpxIdx | andIdx | oraIdx | xorIdx | addIdx | subIdx =>
    exact ⟨_, rfl, (opIdx_precise _).fallThrough fun _ _ => rfl⟩
  | staAbs | staIdx | stwAbs | stwIdx | stxAbs | stxIdx | styAbs | styIdx | stzAbs | stzIdx =>
    exact ⟨_, congrArg finish (storeFrom_eq _ _ s), .done rfl⟩
  | rolAbs | rorAbs => exact ⟨_, congrArg finish (rotateCell_eq _ _ s), .done rfl⟩
  | incAbs | incIdx | decAbs | decIdx => exact ⟨_, congrArg finish (stepCell_eq _ _ s), .done rfl⟩
  | jfn | ret | phs | pos | pha | poa => cases hi

/-- Every instruction but JFN and RET makes at most one access that can fault, and has changed nothing before it
(60_exceptions.md R244). -/
theorem exec_precise (hc : s.config.wf = true) (hsp : s.SpInRange) (hjfn : ∀ addr, i ≠ .jfn addr) (hret : i ≠ .ret) :
    ∃ r, exec i s = finish r ∧ r.Precise i s := by
  cases hi : usesStack i with
  | false => exact exec_precise_of_not_usesStack hi s
  | true =>
    cases i with
    | jfn addr => exact absurd rfl (hjfn addr)
    | ret => exact absurd rfl hret
    | phs | pha => exact ⟨_, rfl, (push_precise _ hi hc hsp).fallThrough fun _ _ => rfl⟩
    | pos | poa => exact ⟨_, rfl, (pop_precise hi hc hsp).fallThrough fun _ _ => rfl⟩
    | _ => exact absurd hi Bool.false_ne_true

/-- An instruction with a precise execute part that ends Faulted is one that may, and the fault is all that it did
(60_exceptions.md R243, R244). -/
theorem Res.Precise.faulted {r : Res Word} (hr : r.Precise i s) (hs : s.status ≠ .faulted) (h : finish r = .next t)
    (ht : t.status = .faulted) : mayFault i = true ∧ ∃ info, t = s.enterFault info := by
  cases hr with
  | done hstatus => cases h; exact absurd (hstatus.symm.trans ht) hs
  | raised info hi => cases h; exact ⟨hi, info, rfl⟩

end

/-- Settles O20: an instruction that uses the stack is listed, and of the others only JMP Absolute-Indirect at 0xFFFF has a
fault. -/
theorem onlyStackAndTopPointerFormsFault : Obligations.OnlyStackAndTopPointerFormsFault := by
  intro i s t hs h ht
  cases hi : usesStack i with
  | true => exact mayFault_of_usesStack hi
  | false =>
    obtain ⟨r, hr, hprecise⟩ := exec_precise_of_not_usesStack hi s
    obtain ⟨hmay, -⟩ := hprecise.faulted hs (hr.symm.trans h) ht
    exact hmay

/-- Settles O21: the fault is raised in the state the instruction began in. -/
theorem executeFaultsArePrecise : Obligations.ExecuteFaultsArePrecise := by
  intro i s t hc hsp hs hjfn hret h ht
  obtain ⟨r, hr, hprecise⟩ := exec_precise hc hsp hjfn hret
  obtain ⟨-, info, rfl⟩ := hprecise.faulted hs (hr.symm.trans h) ht
  exact ⟨info, rfl⟩

end Sys2Proof.Machine
end

section
/-! Totality: every instruction and every step answers a next state, a fault being one (60_exceptions.md R243; log 5). -/

namespace Sys2Proof.Machine

/-- Every instruction ends, and every end is a next state (41_cycle.md R133, 60_exceptions.md R243). -/
theorem exec_total (i : Instr) (s : State) : ∃ t, exec i s = .next t := by
  obtain ⟨r, hr, -⟩ := exec_madeBy i s
  obtain ⟨base, u, -, he⟩ | ⟨u, -, he⟩ := finish_cases r
  · exact ⟨_, hr.trans he⟩
  · exact ⟨_, hr.trans he⟩

/-- Bytes that are no instruction end in a fault (41_cycle.md R130). -/
theorem dispatch_total (bytes : Byte × Byte × Byte) (s : State) : ∃ t, dispatch bytes s = .next t := by
  cases hd : decode s.config.opcodeMap bytes.1 bytes.2.1 bytes.2.2 with
  | ok i => rw [dispatch_ok hd]; exact exec_total i s
  | error e => exact ⟨_, dispatch_error hd⟩

/-- A fetch that leaves the space ends in a fault (41_cycle.md R128). -/
theorem instructionStep_total (s : State) : ∃ t, instructionStep s = .next t := by
  unfold instructionStep
  obtain ⟨bytes, hf⟩ | ⟨info, hf⟩ := fetch_cases s <;> rw [hf]
  · exact dispatch_total bytes s
  · exact ⟨_, rfl⟩

/-- A core that runs no instruction stays as it is or is Halted (41_cycle.md R120, R126, R127). -/
theorem controllerStep_total (s : State) : ∃ t, controllerStep s = .next t := by
  by_cases hs : s.status = .running
  · simp only [controllerStep, hs]
    split
    · split
      · exact ⟨_, rfl⟩
      · exact instructionStep_total s
    · exact ⟨_, rfl⟩
  · exact ⟨_, controllerStep_of_not_running hs⟩

/-- A step is the controller's, or the host's next action, which always has an effect (log 2). -/
theorem step_total (s : State) : ∃ t, step s = .next t := by
  unfold step machineStep
  split
  · exact controllerStep_total s
  · exact controllerStep_total s.takeEvent
  · exact ⟨_, rfl⟩

/-- Settles O14: no instruction and no part of the controller answers anything but a next state. -/
theorem everyStepAnswersANextState : Obligations.EveryStepAnswersANextState := ⟨exec_total, step_total⟩

end Sys2Proof.Machine
end
